-- ==== Sys2Proof/Word.lean ====
section
/-! DEFINITION. The bit-vector types of the WS2812-TX core: what the spec treats as bits (R11, R74). -/

namespace Sys2Proof

/-- A byte: 8 bits, unsigned, 0 to 255 (R11). -/
abbrev Byte := BitVec 8

/-- The command word `{op, idx, r, g, b}` of the command port: 42 bits (R70, R74). -/
abbrev CmdWord := BitVec 42

/-- The field `idx` of a command word: 16 bits, read as two's complement (R75). -/
abbrev IndexField := BitVec 16

/-- The 40 bits `[39:0]` below `op`, where an operation does not look at them (R79). -/
abbrev Operands := BitVec 40

/-- A level of the output line: `true` is high (1), `false` is low (0) (R22). -/
abbrev Level := Bool

end Sys2Proof
end

