-- ==== Sys2Proof/Config.lean ====
section
/-! DEFINITION. The parameters of the core (R5), its fixed constants, and the free values: constants with no body,
for what the spec leaves to a draw or to the environment. -/

namespace Sys2Proof

namespace Config

/-- `F_TARGET` in Hz: the system clock after clock configuration (R5). -/
def fTarget : Nat := 20000000

/-- `T_CYC` in nanoseconds: one cycle of the stable clock (R5). -/
def tCycNs : Nat := 50

/-- `T0H_CYC`: the high phase of Bit-0, in cycles (R5). -/
def t0hCyc : Nat := 5

/-- `T0L_CYC`: the low phase of Bit-0, in cycles (R5). -/
def t0lCyc : Nat := 18

/-- `T1H_CYC`: the high phase of Bit-1, in cycles (R5). -/
def t1hCyc : Nat := 16

/-- `T1L_CYC`: the low phase of Bit-1, in cycles (R5). -/
def t1lCyc : Nat := 9

/-- The least and the default value of `T_RESET_CYC`: 20000 cycles, 1000 µs (R5, D4). -/
def tResetMin : Nat := 20000

/-- The largest strip length (R5, D8). -/
def nMax : Nat := 32767

end Config

/-- A setting of a clock register. The spec keeps the type opaque (R24, R92): a setting has a code, and no rule
computes with it. -/
structure ClkSetting where
  code : Nat
deriving DecidableEq, Repr, Inhabited

/-- `MAX_RETRY`: a natural number or `INF` (R5, D12). -/
inductive RetryBound where
  /-- `INF`: the loop is unbounded. -/
  | inf
  /-- A finite bound, at least 1 (R95). -/
  | finite (bound : Nat)
deriving DecidableEq, Repr, Inhabited

/-- The build-time parameters of R5: fixed before reset is released and constant for the life of the machine. -/
structure Params where
  /-- `N`: the number of LEDs. -/
  n : Nat
  /-- `T_RESET_CYC`: the low time of Reset/Latch in cycles. -/
  tResetCyc : Nat
  /-- `T_SETTLE_CYC`: the settle time of clock configuration in cycles. -/
  tSettleCyc : Nat
  /-- `MAX_RETRY`: the bound on fault-clearing iterations. -/
  maxRetry : RetryBound
  /-- `CLK_SRC_RESET` (R24, D10). -/
  clkSrcReset : ClkSetting
  /-- `CLK_SRC_TARGET`. -/
  clkSrcTarget : ClkSetting
  /-- `CLK_DIV_RESET` (R24, D10). -/
  clkDivReset : ClkSetting
  /-- `CLK_DIV_TARGET`. -/
  clkDivTarget : ClkSetting
  /-- `F_RESET` in Hz: the system clock from reset until it is configured. R5 and R26 ask only that it is positive;
  that it is a whole number of Hz is the model's grain (DESIGN CHOICE, log entry 25). -/
  fReset : Nat
  /-- `PIN`: the identity of the output pin; no rule depends on it. -/
  pin : Nat
  /-- `TOL_NS`: the receiving strip's tolerance per phase in ns; only R111 uses it. That it is a whole number of ns is
  the model's grain (DESIGN CHOICE, log entry 25). -/
  tolNs : Nat
deriving DecidableEq, Repr, Inhabited

/-- The number of bytes of the frame buffer, `3*N` (R21). -/
def Params.fbLen (p : Params) : Nat := 3 * p.n

namespace Config

/-- Free choice of the parameters that the spec leaves OPEN (R5). No body: nothing is known of it. -/
opaque chosen : Params

/-- The parameters of the machine `State.reset`: the free choice, brought into the ranges R5 and R95 allow, with
the default `T_RESET_CYC`. DESIGN CHOICE, log entry 4: every statement about other builds quantifies over `par`. -/
def params : Params :=
  { chosen with
    n := chosen.n % nMax + 1
    tResetCyc := tResetMin
    maxRetry :=
      match chosen.maxRetry with
      | .inf => .inf
      | .finite bound => .finite (bound + 1)
    fReset := chosen.fReset + 1 }

/-- Free value: byte `k` of the frame buffer after the `r`-th reset, until it is written (R35 `draw(byte)`, U5). -/
opaque fbReset (r k : Nat) : Byte

/-- Free value: `OSC_FAULT` after the `r`-th reset (R35 `draw(bit)`). -/
opaque oscFaultReset (r : Nat) : Bool

/-- Free value: what the oscillator puts on `osc_fault_set` at step `e`, where the state lists no input (R94b). -/
opaque oscFaultSet (e : Nat) : Bool

/-- Free value: the frequency of the system clock at step `e` while it is changing; R26 says only positive, so
`State.fSys` adds 1; the whole number of Hz is the model's grain (DESIGN CHOICE, log entry 25). -/
opaque fSysChanging (e : Nat) : Nat

end Config

end Sys2Proof
end

