-- ==== Sys2Proof/Syntax.lean ====
section
/-! DEFINITION. The operations of the core: one constructor for each row of the opcode table (R1, R76, R77). -/

namespace Sys2Proof

/-- The WSTX command set, version 1: the reset-triggered operation, the four kinds of command word and the three
micro-operations. A command keeps the operand bits it ignores, so that no bit of its word is lost. -/
inductive Instr where
  /-- `CLKCFG`: clock configuration, started by reset release (R90). -/
  | clkcfg
  /-- The reserved `op = 0b00` with the 40 bits below it (R78). -/
  | reserved (rest : Operands)
  /-- `CLEAR`, with its ignored bits (R136, R79). -/
  | clear (ignored : Operands)
  /-- `SET idx, r, g, b` (R138). -/
  | set (idx : IndexField) (r g b : Byte)
  /-- `TRANSMIT`, with its ignored bits (R116, R79). -/
  | transmit (ignored : Operands)
  /-- The micro-operation `BIT0` (R106). -/
  | bit0
  /-- The micro-operation `BIT1` (R107). -/
  | bit1
  /-- The micro-operation `RESET`, Reset/Latch (R108). -/
  | reset
deriving DecidableEq, Repr

end Sys2Proof
end

