-- ==== Sys2Proof/WellFormed.lean ====
section
/-! DEFINITION. The checks on terms: which operations have a command word, and which parameter values R5 allows. -/

namespace Sys2Proof

/-- The operations that a command word can express (R76). `CLKCFG` and the micro-operations have no command
encoding (R77), so as a command they are ill-formed. -/
def Instr.wellFormed : Instr → Bool
  | .clkcfg => false
  | .reserved _ => true
  | .clear _ => true
  | .set _ _ _ _ => true
  | .transmit _ => true
  | .bit0 => false
  | .bit1 => false
  | .reset => false

/-- The operations that the opcode table lists with a waveform as their encoding (R77, R80). -/
def Instr.isMicro : Instr → Bool
  | .clkcfg => false
  | .reserved _ => false
  | .clear _ => false
  | .set _ _ _ _ => false
  | .transmit _ => false
  | .bit0 => true
  | .bit1 => true
  | .reset => true

/-- `MAX_RETRY = 0` is not allowed (R95). -/
def RetryBound.allowed : RetryBound → Bool
  | .inf => true
  | .finite bound => 1 ≤ bound

/-- The ranges R5 and R95 give the parameters: `1 ≤ N ≤ 32767`, `T_RESET_CYC ≥ 20000`, `MAX_RETRY ≥ 1` or `INF`,
and a frequency is positive. -/
abbrev Params.wellFormed (p : Params) : Prop :=
  1 ≤ p.n ∧ p.n ≤ Config.nMax ∧ Config.tResetMin ≤ p.tResetCyc ∧ p.maxRetry.allowed = true ∧ 1 ≤ p.fReset

end Sys2Proof
end

