-- ==== Sys2Proof/Decode.lean ====
section
/-! DEFINITION. The decoder of command words and of waveforms, the encoder after it, and the host's view of both. -/

namespace Sys2Proof

/-- Field `op`, bits `[41:40]` (R74). -/
def opField (w : CmdWord) : BitVec 2 := w.extractLsb' 40 2

/-- Field `idx`, bits `[39:24]` (R74). -/
def idxField (w : CmdWord) : IndexField := w.extractLsb' 24 16

/-- Field `r`, bits `[23:16]` (R74). -/
def redField (w : CmdWord) : Byte := w.extractLsb' 16 8

/-- Field `g`, bits `[15:8]` (R74). -/
def greenField (w : CmdWord) : Byte := w.extractLsb' 8 8

/-- Field `b`, bits `[7:0]` (R74). -/
def blueField (w : CmdWord) : Byte := w.extractLsb' 0 8

/-- Bits `[39:0]`, everything below `op` (R79). -/
def operandBits (w : CmdWord) : Operands := w.extractLsb' 0 40

/-- The opcode map of R76, by `op` alone; total, since every word of 42 bits has one of the four values. -/
def decode (w : CmdWord) : Instr :=
  if opField w = 0b00#2 then .reserved (operandBits w)
  else if opField w = 0b01#2 then .clear (operandBits w)
  else if opField w = 0b10#2 then .set (idxField w) (redField w) (greenField w) (blueField w)
  else .transmit (operandBits w)

/-- `{op, rest}`: the command word with these 2 and 40 bits (R74). -/
def wordOf (op : BitVec 2) (rest : Operands) : CmdWord := op.setWidth 42 <<< 40 ||| rest.setWidth 42

/-- `{idx, r, g, b}`: the operand bits of a `SET` (R74). -/
def setOperands (idx : IndexField) (r g b : Byte) : Operands :=
  idx.setWidth 40 <<< 24 ||| r.setWidth 40 <<< 16 ||| g.setWidth 40 <<< 8 ||| b.setWidth 40

/-- The command word of an operation that has one (R74, R76); none for `CLKCFG` and the micro-operations (R77). -/
def encode : Instr → Option CmdWord
  | .clkcfg => none
  | .reserved rest => some (wordOf 0b00#2 rest)
  | .clear ignored => some (wordOf 0b01#2 ignored)
  | .set idx r g b => some (wordOf 0b10#2 (setOperands idx r g b))
  | .transmit ignored => some (wordOf 0b11#2 ignored)
  | .bit0 => none
  | .bit1 => none
  | .reset => none

/-- The canonical word of an operation: ignored fields zero (R79). -/
def canonical : Instr → Instr
  | .clkcfg => .clkcfg
  | .reserved rest => .reserved rest
  | .clear _ => .clear 0#40
  | .set idx r g b => .set idx r g b
  | .transmit _ => .transmit 0#40
  | .bit0 => .bit0
  | .bit1 => .bit1
  | .reset => .reset

/-- A waveform of `high` cycles of 1 and then `low` cycles of 0 as one number, its last cycle in bit 0 (R80). -/
def waveNumber (high low : Nat) : Nat := (2 ^ high - 1) * 2 ^ low

/-- Why bits name no operation of the core. -/
inductive DecodeError where
  /-- A bit above bit 41 is set: the command port has 42 wires (R70). -/
  | wordTooWide
  /-- The levels are no symbol of R80. -/
  | noSymbol
deriving DecidableEq, Repr

/-- The symbol whose waveform is the last `nbits` cycles of `w` (R80). Low cycles before the first rising edge
belong to no bit symbol (R81); low throughout for at least the reset time is Reset/Latch. -/
def decodeWave (nbits w : Nat) : Except DecodeError Instr :=
  if w = waveNumber Config.t0hCyc Config.t0lCyc then .ok .bit0
  else if w = waveNumber Config.t1hCyc Config.t1lCyc then .ok .bit1
  else if w = 0 ∧ Config.tResetMin ≤ nbits then .ok .reset
  else .error .noSymbol

/-- A word on the command port: 42 bits (R70); a wider value is no command word. -/
def decodePort (w : Nat) : Except DecodeError Instr :=
  if w < 2 ^ 42 then .ok (decode (BitVec.ofNat 42 w)) else .error .wordTooWide

/-- The operation of a row of the opcode table whose encoding is `w`, in a row of `nbits` bits. The table has three
formats: no bits at all (`CLKCFG`, R90), a command word of 42 bits (rounded up to whole bytes, R74), and a waveform
of any other length (R80). Log entry 16. -/
def decodeRow (nbits w : Nat) : Except DecodeError Instr :=
  if nbits = 0 then .ok .clkcfg
  else if 42 ≤ nbits ∧ nbits ≤ 48 then decodePort w
  else decodeWave nbits w

/-- The host's view of the decoder: none where it refuses. -/
def decodeTableWord (nbits w : Nat) : Option Instr :=
  match decodeRow nbits w with
  | .ok i => some i
  | .error _ => none

end Sys2Proof
end

