-- ==== Sys2Proof/Machine/State.lean ====
section
/-! DEFINITION. The state of the core as plain data (R20), its inputs, its two histories, and the state after reset
(R35). -/

namespace Sys2Proof.Machine

/-- The nine states of the sequencer, which take the place of a program counter (R29). -/
inductive Seq where
  /-- `CFG_WRITE`: about to write the clock registers; the reset state. -/
  | cfgWrite
  /-- `CFG_SETTLE`: waiting the settle time. -/
  | cfgSettle
  /-- `CFG_FCLR`: in the fault-clearing loop. -/
  | cfgFclr
  /-- `CFG_FAILED`: stopped after a clock-stabilisation timeout. -/
  | cfgFailed
  /-- `IDLE`: waiting for a command. -/
  | idle
  /-- `EXEC`: executing `CLEAR` or `SET` (cycle level). -/
  | exec
  /-- `TX_HIGH`: in the high phase of a bit symbol (cycle level). -/
  | txHigh
  /-- `TX_LOW`: in the low phase of a bit symbol (cycle level). -/
  | txLow
  /-- `TX_LATCH`: in the Reset/Latch low period (cycle level). -/
  | txLatch
deriving DecidableEq, Repr

/-- A performed pulse primitive (R10, R12). -/
inductive Symbol where
  | b0
  | b1
  | rst
deriving DecidableEq, Repr

/-- A segment of the wire timeline: the line held `level` for `cycles` cycles (R9). -/
structure Segment where
  level  : Level
  cycles : Nat
deriving DecidableEq, Repr

/-- What the environment puts on the input ports in one step (R70, R71). `cmd` is `cmd_valid` with `cmd_word`:
nothing offered, or one word. -/
structure Input where
  /-- `rst_n`: false while reset is asserted (R170). -/
  rstN : Bool
  /-- `cmd_valid` and `cmd_word` (R71). -/
  cmd : Option CmdWord
  /-- `osc_fault_set`: the oscillator reports a fault (R70). -/
  oscFaultSet : Bool
deriving DecidableEq, Repr

/-- The frame buffer as a list of written bytes: offsets strictly rising, one entry each. An offset that is not
listed has not been written since reset and holds its drawn value (R35, log entry 5). -/
abbrev Memory := List Host.Cell

/-- The state of the core (R20), its histories (R9, R10), and the model's own fields: the parameters (R5), the
inputs still to come (R36, R71) and two counters that index free values. -/
structure State where
  /-- The build-time parameters (R5); no step changes them. The model's own field. -/
  par : Params
  /-- `FB`, the frame buffer (R21). -/
  fb : Memory
  /-- `DOUT`, the level of the output line (R22). -/
  dout : Level
  /-- `CLK_SRC`, the clock-source selection (R24). -/
  clkSrc : ClkSetting
  /-- `CLK_DIV`, the clock divider setting (R24). -/
  clkDiv : ClkSetting
  /-- `OSC_FAULT`, the sticky oscillator-fault flag (R25). -/
  oscFault : Bool
  /-- `RETRY_CNT`, iterations of the fault-clearing loop that ended with a fault (R27). -/
  retryCnt : Nat
  /-- `SEQ`, the sequencer state (R29). -/
  seq : Seq
  /-- `BYTE_IDX`, the byte being transmitted (R28); an offset of `Params.byteIdxWidth` bits. -/
  byteIdx : Nat
  /-- `BIT_IDX`, the bit being transmitted (R28). -/
  bitIdx : BitVec 3
  /-- `CUR_BIT`, the value of the bit being sent (R28). -/
  curBit : Bool
  /-- `CNT`, cycles of the present phase or wait still to come after the current one (R28, R122): natural by R20,
  a value of `Params.cntWidth` bits (log entry 9). -/
  cnt : Nat
  /-- `ERR`, the sticky error code (R30). -/
  err : BitVec 2
  /-- `WIRE`, the wire timeline (R9): a history, never read by the core. -/
  wire : List Segment
  /-- `SYMS`, the symbol trace (R10): a history, never read by the core. -/
  syms : List Symbol
  /-- The inputs still to come, one per step (R36, R71). The model's own field, log entry 2. -/
  env : List Input
  /-- The words of the host's program not yet accepted, in order; the first is held on the command port wherever the
  listed input offers nothing (R84, R178). The model's own field, log entry 27. -/
  prog : List CmdWord
  /-- Steps taken: the index of the oscillator's free stream. The model's own field, log entry 3. -/
  edges : Nat
  /-- Resets taken: the index of the values drawn at a reset. The model's own field, log entry 5. -/
  resets : Nat
deriving DecidableEq, Repr

/-- Why the machine stops. The spec's own faults (R146) are no stop: they are recorded in `ERR` and the core goes
on or waits for reset (R150, R151). -/
inductive Fault where
  /-- The sequencer would read a frame-buffer offset outside `0 .. 3*N-1`, which does not exist (R50). Raised by
  the cycle-level rules R123 and R125 only, in states no run reaches (`BYTE_IDX` out of its range R20, or `N = 0`).
  Safe: the spec gives no effect there. -/
  | offsetOutOfRange (offset : Nat)
deriving DecidableEq, Repr

/-- Why an instruction is not run. -/
inductive Refusal where
  /-- An instruction without a meaning yet, by its mnemonic. Raised by no arm now. Safe: the machine stops. -/
  | notModelled (mnemonic : String)
deriving DecidableEq, Repr

/-- The state after the reset number `resets` of a machine with parameters `p` (R35). `FB` and `OSC_FAULT` are
draws; the working registers are unspecified and stand at 0 (DESIGN CHOICE, log entry 7). -/
def State.resetAt (p : Params) (resets : Nat) : State :=
  { par := p
    fb := []
    dout := false
    clkSrc := p.clkSrcReset
    clkDiv := p.clkDivReset
    oscFault := Config.oscFaultReset resets
    retryCnt := 0
    seq := .cfgWrite
    byteIdx := 0
    bitIdx := 0#3
    curBit := false
    cnt := 0
    err := 0#2
    wire := []
    syms := []
    env := []
    prog := []
    edges := 0
    resets := resets }

/-- The machine right after its first reset release (R35, R170). -/
def State.reset : State := State.resetAt Config.params 0

end Sys2Proof.Machine
end

