-- ==== Sys2Proof/Machine/Ops.lean ====
section
/-! DEFINITION. The named operations of the notation R11 over the state: the frame buffer, the line, the symbol
trace, the input ports, raising a fault (R150) and taking a reset (R170). -/

namespace Sys2Proof.Machine

/-- An operation followed by another: the first stop ends both. -/
def andThen (o : Host.Outcome State Fault Refusal) (f : State → Host.Outcome State Fault Refusal) :
    Host.Outcome State Fault Refusal :=
  match o with
  | .next s => f s
  | .fault r => .fault r
  | .refused r => .refused r

/-! ### The frame buffer -/

/-- The byte listed at an offset, if one is. -/
def Memory.read? : Memory → Nat → Option Byte
  | [], _ => none
  | (a, v) :: m, k => if a = k then some v else Memory.read? m k

/-- `FB[k] <- v`: one byte, in offset order (R11, R55). -/
def Memory.write : Memory → Nat → Byte → Memory
  | [], k, v => [(k, v)]
  | (a, u) :: m, k, v =>
    if k < a then (k, v) :: (a, u) :: m
    else if k = a then (k, v) :: m
    else (a, u) :: Memory.write m k v

/-- The canonical form: offsets strictly rising. An unlisted offset has no written value, so no entry can equal
it. -/
abbrev Memory.wf (m : Memory) : Prop := (m.map Prod.fst).Pairwise (· < ·)

/-- `FB[k]` for an offset that exists: the last value written since reset, or else the value drawn at reset
(R56, R35). -/
def State.fbByte (s : State) (k : Nat) : Byte :=
  (Memory.read? s.fb k).getD (Config.fbReset s.resets k)

/-- `FB[k]`, none outside `0 .. 3*N-1` (R50). -/
def State.readFb (s : State) (k : Nat) : Option Byte :=
  if k < s.par.fbLen then some (s.fbByte k) else none

/-- `FB[k] <- v` (R11). -/
def State.writeFb (s : State) (k : Nat) (v : Byte) : State :=
  { s with fb := Memory.write s.fb k v }

/-! ### The line and the symbol trace -/

/-- `Emit(level, cycles)`: append the segment, leave the line at its level (R11). -/
def State.emit (s : State) (level : Level) (cycles : Nat) : State :=
  { s with wire := s.wire ++ [⟨level, cycles⟩], dout := level }

/-- `Sym(x)`: append to the symbol trace (R11). -/
def State.sym (s : State) (x : Symbol) : State :=
  { s with syms := s.syms ++ [x] }

/-! ### Faults -/

/-- The three faults of the core with what a model may keep of each (R146). -/
inductive CoreFault where
  | clockStabilizationTimeout (retries : Nat)
  | indexOutOfRange (idx : IndexField)
  | illegalCommand (word : CmdWord)
deriving DecidableEq, Repr

/-- The code a fault leaves in `ERR` (R146). -/
def faultCode : CoreFault → BitVec 2
  | .clockStabilizationTimeout _ => 1#2
  | .indexOutOfRange _ => 2#2
  | .illegalCommand _ => 3#2

/-- `raise F(info)`: record the code unless an earlier fault is recorded; nothing else is saved (R150). -/
def State.raise (s : State) (f : CoreFault) : State :=
  { s with err := if s.err = 0#2 then faultCode f else s.err }

/-! ### The input ports and reset -/

/-- The input of a step for which the state lists none: reset released, nothing offered, and the oscillator's free
value (log entries 2 and 3). -/
def State.unlistedInput (s : State) : Input :=
  { rstN := true, cmd := none, oscFaultSet := Config.oscFaultSet s.edges }

/-- The input that the state lists for this step, or the unlisted one. -/
def State.listedInput (s : State) : Input :=
  match s.env with
  | [] => s.unlistedInput
  | i :: _ => i

/-- What stands on the input ports in this step: the listed input, and on the command port, where that offers nothing,
the first word of the host's program that is not yet accepted (R71, R84; log entry 27). -/
def State.input (s : State) : Input :=
  { s.listedInput with cmd := s.listedInput.cmd.or s.prog.head? }

/-- The program after a step: its first word is gone if it stood on the port with `cmd_ready = 1`, that is, if it was
accepted (R73); until then the host holds it (R84, R178). -/
def State.progAfter (s : State) : List CmdWord :=
  if s.seq = .idle ∧ s.listedInput.cmd = none then s.prog.tail else s.prog

/-- The end of a step that began in `s`: `OSC_FAULT <- OSC_FAULT or osc_fault_set` (R70, R25), after the step's own
write, so that a set in the same cycle as a clear wins (R155, D13); then the host's next inputs come up. -/
def State.sample (t s : State) : State :=
  { t with
    oscFault := t.oscFault || s.input.oscFaultSet
    env := s.env.tail
    prog := s.progAfter
    edges := s.edges + 1 }

/-- Reset, from any state: the values of R35 with fresh draws; the parameters stay, the histories are kept and get
no further segment, and no command is accepted, so the host's program stays (R170, R173, R32). -/
def State.takeReset (s : State) : State :=
  { State.resetAt s.par (s.resets + 1) with
    wire := s.wire
    syms := s.syms
    env := s.env.tail
    prog := s.prog
    edges := s.edges + 1 }

end Sys2Proof.Machine
end

