-- ==== Sys2Proof/Machine/Flags.lean ====
section
/-! DEFINITION. The values the spec derives from the state (R20): `CLK_STATE`, `CLK_STABLE`, `BUSY`, `F_SYS`, and the
ports (R70); and the widths of the working registers (R28). -/

namespace Sys2Proof

/-- The width of `BYTE_IDX`: `ceil(log2(3*N))` bits, at least 1 (R28). -/
def Params.byteIdxWidth (p : Params) : Nat := max 1 (Nat.clog 2 p.fbLen)

/-- R28's width of `CNT`: `ceil(log2(max(T_RESET_CYC, T_SETTLE_CYC, 16)))` bits. -/
def Params.cntFormula (p : Params) : Nat := Nat.clog 2 (max p.tResetCyc (max p.tSettleCyc 16))

/-- The width of `CNT`: R28's formula, and one bit more where `T_SETTLE_CYC` itself, which R91 loads, does not fit in
that, a power of two above the other two (DEDUCED from R20, R28, R91 and R93, log entry 9). -/
def Params.cntWidth (p : Params) : Nat :=
  if p.tSettleCyc < 2 ^ p.cntFormula then p.cntFormula else p.cntFormula + 1

namespace Machine

/-- The five cases of `CLK_STATE` (R23). -/
inductive ClkState where
  | unconfigured
  | settling
  | faultClearing
  | failed
  | stable
deriving DecidableEq, Repr

/-- `CLK_STATE` as a function of `SEQ` (R23). -/
def clkStateOf : Seq → ClkState
  | .cfgWrite => .unconfigured
  | .cfgSettle => .settling
  | .cfgFclr => .faultClearing
  | .cfgFailed => .failed
  | .idle => .stable
  | .exec => .stable
  | .txHigh => .stable
  | .txLow => .stable
  | .txLatch => .stable

/-- `CLK_STATE` (R23). -/
def State.clkState (s : State) : ClkState := clkStateOf s.seq

/-- `CLK_STABLE = (CLK_STATE = STABLE)` (R31). -/
def State.clkStable (s : State) : Bool := s.clkState = .stable

/-- `BUSY = (SEQ != IDLE)` (R31). -/
def State.busy (s : State) : Bool := s.seq ≠ .idle

/-- `cmd_ready = (SEQ = IDLE)` (R72). -/
def State.cmdReady (s : State) : Bool := s.seq = .idle

/-- `F_SYS` in Hz (R26): `F_RESET` before configuration, some positive value while the clock is changing, exactly
`F_TARGET` once it is stable (the assumption D13 on the environment, log entry 17). Where R26 asks only for a positive
value, a whole number of Hz of at least 1 is the model's grain (DESIGN CHOICE, log entry 25). -/
def State.fSys (s : State) : Nat :=
  match s.clkState with
  | .unconfigured => s.par.fReset
  | .settling => Config.fSysChanging s.edges + 1
  | .faultClearing => Config.fSysChanging s.edges + 1
  | .failed => Config.fSysChanging s.edges + 1
  | .stable => Config.fTarget

/-- The output ports (R70). -/
structure Ports where
  cmdReady  : Bool
  dout      : Level
  busy      : Bool
  clkStable : Bool
  err       : BitVec 2
  clkSrc    : ClkSetting
  clkDiv    : ClkSetting
deriving DecidableEq, Repr

/-- What the output ports show in a state (R70, R122). -/
def State.ports (s : State) : Ports :=
  { cmdReady := s.cmdReady
    dout := s.dout
    busy := s.busy
    clkStable := s.clkStable
    err := s.err
    clkSrc := s.clkSrc
    clkDiv := s.clkDiv }

end Machine

end Sys2Proof
end

