-- ==== Sys2Proof/Machine/Clock.lean ====
section
/-! DEFINITION. `CLKCFG`, the clock configuration (R90 to R100). -/

namespace Sys2Proof.Machine

/-- Whether `retries` completed iterations use up the bound (R94d): never, for `INF`. -/
def boundUsedUp : RetryBound → Nat → Bool
  | .inf, _ => false
  | .finite bound, retries => bound ≤ retries

/-- Step 1, register writes, all at once (R91). -/
def State.clkWrite (s : State) : State :=
  { s with
    clkSrc := s.par.clkSrcTarget
    clkDiv := s.par.clkDivTarget
    oscFault := false
    cnt := s.par.tSettleCyc
    seq := .cfgSettle }

/-- Step 2, one cycle of the settle wait (R93). -/
def State.clkSettle (s : State) : State :=
  if 0 < s.cnt then { s with cnt := s.cnt - 1 } else { s with seq := .cfgFclr }

/-- Step 3, one iteration of the fault-clearing loop, given the oscillator's answer (R94, R95). -/
def State.clkIterate (s : State) (draw : Bool) : State :=
  if draw then
    let t := { s with oscFault := true, retryCnt := s.retryCnt + 1 }
    if boundUsedUp s.par.maxRetry t.retryCnt then
      { t.raise (.clockStabilizationTimeout t.retryCnt) with seq := .cfgFailed }
    else t
  else { s with oscFault := false, seq := .idle }

/-- `CLKCFG`: the rule that `SEQ` selects (R91, one cycle of R93, one iteration of R94; `CFG_FAILED` stays, R95b).
The oscillator's answer is what stands on `osc_fault_set` (R155). Where the clock is stable `CLKCFG` has run and
has no further effect (R99). Log entries 11 and 13. -/
def execClkcfg (s : State) : Host.Outcome State Fault Refusal :=
  .next
    (match s.seq with
    | .cfgWrite => s.clkWrite
    | .cfgSettle => s.clkSettle
    | .cfgFclr => s.clkIterate s.input.oscFaultSet
    | .cfgFailed => s
    | .idle => s
    | .exec => s
    | .txHigh => s
    | .txLow => s
    | .txLatch => s)

end Sys2Proof.Machine
end

