-- ==== Sys2Proof/Machine/Operands.lean ====
section
/-! DEFINITION. Operand assembly of `SET`: the signed index and its range, the base offset, the colour order
(R75, R137, R139). -/

namespace Sys2Proof.Machine

/-- `idx = signed(cmd_word[39:24])` (R75). -/
def signedIndex (idx : IndexField) : Int := idx.toInt

/-- The three ranges of an index (R54). -/
inductive IndexRange where
  /-- `idx < 0`: a no-op. -/
  | negative
  /-- `0 <= idx < N`: LED `led`. -/
  | valid (led : Nat)
  /-- `idx >= N`: out of range. -/
  | tooLarge
deriving DecidableEq, Repr

/-- `idx < 0` is tested signed, then `idx >= N` on integers (R138, R139). -/
def indexRange (n : Nat) (idx : IndexField) : IndexRange :=
  if signedIndex idx < 0 then .negative
  else if idx.toNat < n then .valid idx.toNat
  else .tooLarge

/-- The base offset `3 * idx`, an unbounded natural number (R75, R139). -/
def baseOffset (led : Nat) : Nat := 3 * led

/-- Store one LED's colour in wire order: Green, Red, Blue (R137, R138). -/
def State.storeColor (s : State) (led : Nat) (r g b : Byte) : State :=
  ((s.writeFb (baseOffset led) g).writeFb (baseOffset led + 1) r).writeFb (baseOffset led + 2) b

/-- The Color Entry of LED `led` as it is stored: Green, Red, Blue at `3i`, `3i+1`, `3i+2` (R51). -/
def State.colorEntry (s : State) (led : Nat) : Byte × Byte × Byte :=
  (s.fbByte (baseOffset led), s.fbByte (baseOffset led + 1), s.fbByte (baseOffset led + 2))

end Sys2Proof.Machine
end

