-- ==== Sys2Proof/Machine/Buffer.lean ====
section
/-! DEFINITION. `CLEAR` and `SET` (R135 to R141) and the reserved command (R78). Each is one atomic transition from
`IDLE` to `IDLE` at the operation level (R140). A command that the core is not ready for is held: it is not accepted
and has no effect (R73, log entry 13). -/

namespace Sys2Proof.Machine

/-- A command word is accepted only when `SEQ = IDLE` (R72, R73). -/
def State.whenReady (s : State) (t : State) : State := if s.seq = .idle then t else s

/-- The effect of `CLEAR`: `for k from 0 to 3*N - 1: FB[k] <- 0x00` (R136). -/
def State.clearFb (s : State) : State :=
  (List.range s.par.fbLen).foldl (fun t k => t.writeFb k 0#8) s

/-- The effect of `SET idx, r, g, b`: one of the three cases of R138. -/
def State.setLed (s : State) (idx : IndexField) (r g b : Byte) : State :=
  match indexRange s.par.n idx with
  | .negative => s
  | .valid led => s.storeColor led r g b
  | .tooLarge => s.raise (.indexOutOfRange idx)

/-- The effect of accepting a reserved word: `raise IllegalCommand(cmd_word)` (R78, R149). -/
def State.illegal (s : State) (rest : Operands) : State :=
  s.raise (.illegalCommand (wordOf 0b00#2 rest))

/-- `CLEAR` (R136). -/
def execClear (s : State) : Host.Outcome State Fault Refusal := .next (s.whenReady s.clearFb)

/-- `SET` (R138). -/
def execSet (idx : IndexField) (r g b : Byte) (s : State) : Host.Outcome State Fault Refusal :=
  .next (s.whenReady (s.setLed idx r g b))

/-- The reserved `op = 0b00` (R78). -/
def execReserved (rest : Operands) (s : State) : Host.Outcome State Fault Refusal :=
  .next (s.whenReady (s.illegal rest))

end Sys2Proof.Machine
end

