-- ==== Sys2Proof/Machine/Pulse.lean ====
section
/-! DEFINITION. The pulse primitives `BIT0`, `BIT1` and `RESET` (R105 to R113). -/

namespace Sys2Proof.Machine

/-- `H(c)`: the cycles of the high phase of the symbol for bit value `c` (R122). -/
def highCycles (c : Bool) : Nat := if c then Config.t1hCyc else Config.t0hCyc

/-- `L(c)`: the cycles of the low phase of the symbol for bit value `c` (R122). -/
def lowCycles (c : Bool) : Nat := if c then Config.t1lCyc else Config.t0lCyc

/-- The symbol for a bit value (R82). -/
def bitSymbol (c : Bool) : Symbol := if c then .b1 else .b0

/-- One bit symbol, `BIT1` or `BIT0`: high phase, low phase, symbol (R106, R107). -/
def State.pulseBit (s : State) (c : Bool) : State :=
  ((s.emit true (highCycles c)).emit false (lowCycles c)).sym (bitSymbol c)

/-- Reset/Latch: a single low phase and its symbol (R108, C2). -/
def State.pulseLatch (s : State) : State :=
  (s.emit false s.par.tResetCyc).sym .rst

/-- `BIT0` (R106). -/
def execBit0 (s : State) : Host.Outcome State Fault Refusal := .next (s.pulseBit false)

/-- `BIT1` (R107). -/
def execBit1 (s : State) : Host.Outcome State Fault Refusal := .next (s.pulseBit true)

/-- `RESET` (R108). -/
def execReset (s : State) : Host.Outcome State Fault Refusal := .next s.pulseLatch

end Sys2Proof.Machine
end

