-- ==== Sys2Proof/Machine/Transmit.lean ====
section
/-! DEFINITION. `TRANSMIT` at the operation level (R115 to R121), which is the normative one (R128). -/

namespace Sys2Proof.Machine

/-- The bit numbers of a byte in wire order: most significant first (R52, R82). -/
def wireBitOrder : List Nat := [7, 6, 5, 4, 3, 2, 1, 0]

/-- Send one byte: `for j from 7 down to 0: if v[j] = 1 then BIT1 else BIT0` (R116). -/
def State.sendByte (s : State) (v : Byte) : State :=
  wireBitOrder.foldl (fun t j => t.pulseBit (v.getLsbD j)) s

/-- Send the whole frame buffer in ascending offset order (R116). -/
def State.sendBytes (s : State) : State :=
  (List.range s.par.fbLen).foldl (fun t k => t.sendByte (t.fbByte k)) s

/-- Where the working registers stand when a frame is over: at the last bit of the last byte, with no cycle left.
R28 leaves them unspecified there; these are the values the sequencer R123 to R126 leaves (log entry 8). -/
def State.parkRegisters (s : State) : State :=
  { s with
    byteIdx := s.par.fbLen - 1
    bitIdx := 0#3
    curBit := (s.fbByte (s.par.fbLen - 1)).getLsbD 0
    cnt := 0 }

/-- The effect of `TRANSMIT`: every byte, then `RESET` once, then `IDLE` (R116). -/
def State.transmit (s : State) : State :=
  { s.sendBytes.pulseLatch.parkRegisters with seq := .idle }

/-- `TRANSMIT` (R116); held while the core is not ready (R73). -/
def execTransmit (s : State) : Host.Outcome State Fault Refusal := .next (s.whenReady s.transmit)

end Sys2Proof.Machine
end

