-- ==== Sys2Proof/Machine/Dispatch.lean ====
section
/-! DEFINITION. The dispatch: one arm for each operation, one direct call of its meaning. -/

namespace Sys2Proof.Machine

/-- The effect of an operation, as one atomic transition (R7a). -/
def exec (i : Instr) (s : State) : Host.Outcome State Fault Refusal :=
  match i with
  | .clkcfg => Sys2Proof.Machine.execClkcfg s
  | .reserved rest => Sys2Proof.Machine.execReserved rest s
  | .clear _ => Sys2Proof.Machine.execClear s
  | .set idx r g b => Sys2Proof.Machine.execSet idx r g b s
  | .transmit _ => Sys2Proof.Machine.execTransmit s
  | .bit0 => Sys2Proof.Machine.execBit0 s
  | .bit1 => Sys2Proof.Machine.execBit1 s
  | .reset => Sys2Proof.Machine.execReset s

end Sys2Proof.Machine
end

