-- ==== Sys2Proof/Machine/Cycle.lean ====
section
/-! DEFINITION. The cycle level (R122 to R127): the sequencer edge by edge, `edge`, with the whole transition table
R127. -/

namespace Sys2Proof.Machine

/-- The segment in progress lasts one cycle longer; a line level that differs begins a new one. -/
def extendWire : List Segment → Level → List Segment
  | [], l => [⟨l, 1⟩]
  | [seg], l => if seg.level = l then [⟨l, seg.cycles + 1⟩] else [seg, ⟨l, 1⟩]
  | seg :: seg' :: rest, l => seg :: extendWire (seg' :: rest) l

/-- Append `(DOUT, 1)` for the cycle that this edge ends (R122). The first cycle of a phase of `phase` cycles begins
a segment; the others extend it, as R9 allows (log entry 14). -/
def State.record (s : State) (phase : Nat) : State :=
  { s with
    wire := if s.cnt + 1 = phase then s.wire ++ [⟨s.dout, 1⟩] else extendWire s.wire s.dout }

/-- Begin the symbol of bit `j` of byte `k` (the common part of R123 and R125). -/
def State.beginSymbol (s : State) (k : Nat) (j : BitVec 3) : Host.Outcome State Fault Refusal :=
  match s.readFb k with
  | none => .fault (.offsetOutOfRange k)
  | some v =>
    .next
      { s with
        byteIdx := k
        bitIdx := j
        curBit := v.getLsbD j.toNat
        cnt := highCycles (v.getLsbD j.toNat) - 1
        dout := true
        seq := .txHigh }

/-- What follows a complete bit symbol: the next bit, the next byte, or the latch period (R125). -/
def State.nextSymbol (s : State) : Host.Outcome State Fault Refusal :=
  if 0#3 < s.bitIdx then s.beginSymbol s.byteIdx (s.bitIdx - 1#3)
  else if s.byteIdx < s.par.fbLen - 1 then s.beginSymbol (s.byteIdx + 1) 7#3
  else .next { s with cnt := s.par.tResetCyc - 1, seq := .txLatch }

/-- The high phase (R124). -/
def State.edgeHigh (s : State) : State :=
  let t := s.record (highCycles s.curBit)
  if 0 < t.cnt then { t with cnt := t.cnt - 1 }
  else { t with dout := false, cnt := lowCycles t.curBit - 1, seq := .txLow }

/-- The low phase and the advance (R125). -/
def State.edgeLow (s : State) : Host.Outcome State Fault Refusal :=
  let t := s.record (lowCycles s.curBit)
  if 0 < t.cnt then .next { t with cnt := t.cnt - 1 }
  else (t.sym (bitSymbol t.curBit)).nextSymbol

/-- The latch period (R126). -/
def State.edgeLatch (s : State) : State :=
  let t := s.record s.par.tResetCyc
  if 0 < t.cnt then { t with cnt := t.cnt - 1 } else { t.sym .rst with seq := .idle }

/-- Acceptance of a command at an edge where `SEQ = IDLE` (R73, R123, R127). `CLEAR` and `SET` act at this edge and
spend one cycle in `EXEC` (log entry 12); no command word decodes to the last four (R77). -/
def accept (i : Instr) (s : State) : Host.Outcome State Fault Refusal :=
  match i with
  | .reserved rest => .next (s.illegal rest)
  | .clear _ => .next { s.clearFb with seq := .exec }
  | .set idx r g b => .next { s.setLed idx r g b with seq := .exec }
  | .transmit _ => s.beginSymbol 0 7#3
  | .clkcfg => .next s
  | .bit0 => .next s
  | .bit1 => .next s
  | .reset => .next s

/-- An edge in a sequencer state that no command word concerns (R127). -/
def sequencerEdge (s : State) : Host.Outcome State Fault Refusal :=
  match s.seq with
  | .cfgWrite => execClkcfg s
  | .cfgSettle => execClkcfg s
  | .cfgFclr => execClkcfg s
  | .cfgFailed => execClkcfg s
  | .idle => .next s
  | .exec => .next { s with seq := .idle }
  | .txHigh => .next s.edgeHigh
  | .txLow => s.edgeLow
  | .txLatch => .next s.edgeLatch

/-- The command accepted at this edge, if one is: `cmd_valid = 1` and `cmd_ready = 1` (R73). -/
def State.accepted (s : State) : Option Instr :=
  if s.seq = .idle then s.input.cmd.map decode else none

/-- What an edge does while reset is released. -/
def edgeBody (s : State) : Host.Outcome State Fault Refusal :=
  match s.accepted with
  | some i => accept i s
  | none => sequencerEdge s

/-- One rising edge of `mclk` (R122); reset overrides everything (R170). -/
def edge (s : State) : Host.Outcome State Fault Refusal :=
  if s.input.rstN then andThen (edgeBody s) (fun t => .next (t.sample s)) else .next s.takeReset

/-- `k` edges, up to the first stop. -/
def runEdges : Nat → State → Host.Outcome State Fault Refusal
  | 0, s => .next s
  | k + 1, s => andThen (edge s) (runEdges k)

end Sys2Proof.Machine
end

