-- ==== Sys2Proof/Machine/Fetch.lean ====
section
/-! DEFINITION. The operation level as a machine: which operation a state runs next, what follows it, and how an
operation is placed for the next step. -/

namespace Sys2Proof.Machine

/-- The operation that the sequencer and the command port select (R127, log entry 1): `CLKCFG` until it is over; at
`IDLE` the command offered; at the first cycle of a symbol or of the latch period the micro-operation that begins
there. In the other states the sequencer goes on by one edge. -/
def State.current (s : State) : Option Instr :=
  match s.seq with
  | .cfgWrite => some .clkcfg
  | .cfgSettle => some .clkcfg
  | .cfgFclr => some .clkcfg
  | .cfgFailed => some .clkcfg
  | .idle => s.input.cmd.map decode
  | .exec => none
  | .txHigh =>
    if s.cnt + 1 = highCycles s.curBit then some (if s.curBit then .bit1 else .bit0) else none
  | .txLow => none
  | .txLatch => if s.cnt + 1 = s.par.tResetCyc then some .reset else none

/-- What the sequencer does after an operation: after a bit symbol the advance of R125, after Reset/Latch the return
to `IDLE` of R126; a command and `CLKCFG` leave `SEQ` where they put it. -/
def resume (i : Instr) (s : State) : Host.Outcome State Fault Refusal :=
  match i with
  | .clkcfg => .next s
  | .reserved _ => .next s
  | .clear _ => .next s
  | .set _ _ _ _ => .next s
  | .transmit _ => .next s
  | .bit0 => s.nextSymbol
  | .bit1 => s.nextSymbol
  | .reset => .next { s with cnt := 0, seq := .idle }

/-- One step of the operation level while reset is released. -/
def stepBody (s : State) : Host.Outcome State Fault Refusal :=
  match s.current with
  | some i => andThen (exec i s) (resume i)
  | none => sequencerEdge s

/-- The inputs of a step in which the host offers one word (R71). What the oscillator puts on `osc_fault_set` is the
environment's to say (R25, R70); that it is 0 here is the model's choice of one such input (DESIGN CHOICE, log entry
16). -/
def offer (w : CmdWord) : Input := { rstN := true, cmd := some w, oscFaultSet := false }

/-- The inputs of a step in which the host offers nothing; `osc_fault_set` is 0 as in `offer` (DESIGN CHOICE, log entry
16). -/
def quiet : Input := { rstN := true, cmd := none, oscFaultSet := false }

/-- The state at the first cycle of the symbol for `c`, bit 7 of byte 0 (R123), with the input `quiet` for the step
(log entry 16). -/
def State.atSymbol (s : State) (c : Bool) : State :=
  { s with
    byteIdx := 0
    bitIdx := 7#3
    curBit := c
    cnt := highCycles c - 1
    dout := true
    seq := .txHigh
    env := quiet :: s.env }

/-- The state whose next step runs the operation: a command word stands on the port with `SEQ = IDLE`; the others
have no place on the port (R77), so the sequencer stands where it begins them. Each row is placed with `osc_fault_set`
0 in its step, where the environment could say 1: a placed `CLKCFG` therefore leaves `OSC_FAULT` 0 after R91 (DESIGN
CHOICE, log entry 16). -/
def State.placed (s : State) (w : Nat) : Instr → State
  | .clkcfg => { s with seq := .cfgWrite, env := quiet :: s.env }
  | .reserved _ => { s with seq := .idle, env := offer (BitVec.ofNat 42 w) :: s.env }
  | .clear _ => { s with seq := .idle, env := offer (BitVec.ofNat 42 w) :: s.env }
  | .set _ _ _ _ => { s with seq := .idle, env := offer (BitVec.ofNat 42 w) :: s.env }
  | .transmit _ => { s with seq := .idle, env := offer (BitVec.ofNat 42 w) :: s.env }
  | .bit0 => s.atSymbol false
  | .bit1 => s.atSymbol true
  | .reset => { s with cnt := s.par.tResetCyc - 1, dout := false, seq := .txLatch, env := quiet :: s.env }

/-- A row's operation placed for the next step; a word that is none leaves the state as it is. -/
def State.placeRow (s : State) (nbits w : Nat) : State :=
  match decodeTableWord nbits w with
  | some i => s.placed w i
  | none => s

end Sys2Proof.Machine
end

