-- ==== Sys2Proof/Machine/Step.lean ====
section
/-! DEFINITION. One step of the core at the operation level (R7a, R128), and the placing of an instruction for the
next step. -/

namespace Sys2Proof.Machine

/-- One step: reset overrides everything (R170); otherwise the operation in turn runs, and the inputs are sampled
(R70). -/
def step (s : State) : Host.Outcome State Fault Refusal :=
  if s.input.rstN then andThen (stepBody s) (fun t => .next (t.sample s)) else .next s.takeReset

/-- The state whose very next step runs the instruction of a row of the opcode table (log entry 16). -/
def State.withFetchWord (s : State) (nbits w : Nat) : State := s.placeRow nbits w

end Sys2Proof.Machine
end

