-- ==== Sys2Proof/Machine/Assemble.lean ====
section
/-! DEFINITION. The textual syntax of host programs (R84, D26): one command per line, assembled to its command word
with ignored fields zero; and running a program, each word held on the port until accepted. -/

namespace Sys2Proof.Machine

/-- A digit of a decimal or hexadecimal number. -/
def digitValue (base : Nat) (c : Char) : Option Nat :=
  let v :=
    if '0' ≤ c ∧ c ≤ '9' then c.toNat - '0'.toNat
    else if 'a' ≤ c ∧ c ≤ 'f' then c.toNat - 'a'.toNat + 10
    else if 'A' ≤ c ∧ c ≤ 'F' then c.toNat - 'A'.toNat + 10
    else base
  if v < base then some v else none

/-- The value of a run of digits after the value `acc` of those before it. -/
def digitsValue (base : Nat) : Nat → List Char → Option Nat
  | acc, [] => some acc
  | acc, c :: cs =>
    match digitValue base c with
    | some v => digitsValue base (acc * base + v) cs
    | none => none

/-- A natural number: at least one digit of the base. -/
def parseDigits (base : Nat) : List Char → Option Nat
  | [] => none
  | c :: cs => digitsValue base 0 (c :: cs)

/-- A colour operand: decimal `0..255` or `0x..` (R84). -/
def parseByte (cs : List Char) : Option Byte :=
  let value :=
    match cs with
    | '0' :: 'x' :: rest => parseDigits 16 rest
    | other => parseDigits 10 other
  match value with
  | some v => if v < 256 then some (BitVec.ofNat 8 v) else none
  | none => none

/-- The index operand: decimal, possibly negative (R84), in the range of the field (R75). -/
def parseIndex : List Char → Option IndexField
  | '-' :: cs =>
    match parseDigits 10 cs with
    | some v => if v ≤ 32768 then some (BitVec.ofInt 16 (-(v : Int))) else none
    | none => none
  | cs =>
    match parseDigits 10 cs with
    | some v => if v ≤ 32767 then some (BitVec.ofNat 16 v) else none
    | none => none

/-- A line's text without its comment and its blanks (log entry 21). -/
def significant (line : List Char) : List Char :=
  (line.takeWhile (· ≠ ';')).filter (fun c => c ≠ ' ' && c ≠ '\t')

/-- The comma-separated operands of a line. -/
def splitCommas : List Char → List (List Char)
  | [] => [[]]
  | ',' :: cs => [] :: splitCommas cs
  | c :: cs =>
    match splitCommas cs with
    | [] => [[c]]
    | field :: fields => (c :: field) :: fields

/-- The operands of `SET`. -/
def parseSet (operands : List (List Char)) : Option Instr :=
  match operands with
  | [i, r, g, b] =>
    match parseIndex i, parseByte r, parseByte g, parseByte b with
    | some idx, some red, some green, some blue => some (.set idx red green blue)
    | _, _, _, _ => none
  | _ => none

/-- The command of one line (R84); none where the line is no command. -/
def parseLine (line : List Char) : Option Instr :=
  match significant line with
  | ['C', 'L', 'E', 'A', 'R'] => some (.clear 0#40)
  | ['T', 'R', 'A', 'N', 'S', 'M', 'I', 'T'] => some (.transmit 0#40)
  | 'S' :: 'E' :: 'T' :: operands => parseSet (splitCommas operands)
  | _ => none

/-- The command word of one line, by R74 and R76, ignored fields zero (R84). -/
def assembleLine (line : List Char) : Option CmdWord := (parseLine line).bind encode

/-- The command words of a program, one per line (R84). -/
def assemble : List (List Char) → Option (List CmdWord)
  | [] => some []
  | line :: rest =>
    match assembleLine line, assemble rest with
    | some w, some ws => some (w :: ws)
    | _, _ => none

/-- The state whose host runs a program of command words after what it runs already: the words are offered in order,
each held until accepted (R84, R73), at either level and from every state, by `State.input` and `State.progAfter`. -/
def State.withProgram (s : State) (ws : List CmdWord) : State :=
  { s with prog := s.prog ++ ws }

/-- What the commands of a program do one after another, at the operation level (R73, R84). -/
def runCommands : List CmdWord → State → Host.Outcome State Fault Refusal
  | [], s => .next s
  | w :: ws, s => andThen (exec (decode w) s) (runCommands ws)

/-- The inputs of a host that offers one word for `k` cycles and no longer, accepted or not. -/
def hold (w : CmdWord) (k : Nat) : List Input := List.replicate k (offer w)

end Sys2Proof.Machine
end

