-- ==== Sys2Proof/Machine/Timing.lean ====
section
/-! DEFINITION. What the wire timeline means: levels cycle by cycle, durations, rising edges, and the conformance
predicate (R6, R9, R52, R83, R111, R117, R184). The core computes none of it; claims are stated with it. -/

namespace Sys2Proof.Machine

/-- The level of each cycle of a timeline, in time order. Timelines with equal levels mean the same (R9). -/
def levels : List Segment → List Level
  | [] => []
  | seg :: rest => List.replicate seg.cycles seg.level ++ levels rest

/-- The number of cycles of a timeline. -/
def wireCycles : List Segment → Nat
  | [] => 0
  | seg :: rest => seg.cycles + wireCycles rest

/-- How often the line rises, given its level before (R117e). -/
def risingEdges : Level → List Level → Nat
  | _, [] => 0
  | before, now :: rest => (if !before && now then 1 else 0) + risingEdges now rest

/-- Bit `k` of the frame that the state would send: `FB[k div 8][7 - (k mod 8)]` (R52). -/
def State.frameBit (s : State) (k : Nat) : Bool := (s.fbByte (k / 8)).getLsbD (7 - k % 8)

/-- The `24*N` bits of the frame in wire order (R52, R83). -/
def State.frameBits (s : State) : List Bool := (List.range (24 * s.par.n)).map s.frameBit

/-- `o`: the number of 1 bits in `FB` (R117d). -/
def State.oneBits (s : State) : Nat := s.frameBits.count true

/-- `z = 24*N - o` (R117d). -/
def State.zeroBits (s : State) : Nat := 24 * s.par.n - s.oneBits

/-- The duration of `TRANSMIT`, in cycles: `23*z + 25*o + T_RESET_CYC` (R117d). -/
def State.frameCycles (s : State) : Nat := 23 * s.zeroBits + 25 * s.oneBits + s.par.tResetCyc

/-- The two segments of a bit symbol (R117c). -/
def symbolSegments (c : Bool) : List Segment := [⟨true, highCycles c⟩, ⟨false, lowCycles c⟩]

/-- The segments of a whole frame (R117c). -/
def State.frameSegments (s : State) : List Segment :=
  s.frameBits.flatMap symbolSegments ++ [⟨false, s.par.tResetCyc⟩]

/-- The symbols of a whole frame (R117a, R117b). -/
def State.frameSymbols (s : State) : List Symbol := s.frameBits.map bitSymbol ++ [.rst]

/-- The time that `c` cycles of the stable clock take, in ns (R6); it rests on R26 (log entry 17). -/
def cyclesToNs (c : Nat) : Nat := Config.tCycNs * c

/-- `|a - b| <= tol` on durations. -/
def within (a b tol : Nat) : Bool := a ≤ b + tol && b ≤ a + tol

/-- `ConformsBit0` (R111). -/
def conformsBit0 (tol h l : Nat) : Bool := within h 250 tol && within l 900 tol

/-- `ConformsBit1` (R111). -/
def conformsBit1 (tol h l : Nat) : Bool := within h 800 tol && within l 450 tol

/-- `ConformsReset` (R111). -/
def conformsReset (l : Nat) : Bool := 1000000 ≤ l

/-- How a receiving strip with tolerance `tol` reads a bit symbol: by the length of its high phase alone (R81), with
the windows of R111. What it reads outside both windows, and inside both where `tol` is 275 ns or more, the spec does
not say: the model reads no bit there (DESIGN CHOICE, log entry 26). -/
def receivedBit (tol h : Nat) : Option Bool :=
  match within h 250 tol, within h 800 tol with
  | true, false => some false
  | false, true => some true
  | true, true => none
  | false, false => none

/-- One pulse of a captured timeline: a high phase and the low phase up to the next rising edge or the end of the
timeline (R81). -/
structure Pulse where
  high : Nat
  low  : Nat
deriving DecidableEq, Repr

/-- A captured timeline: how long the line was low before its first rising edge, and then its pulses. -/
structure Timeline where
  before : Nat
  pulses : List Pulse
deriving DecidableEq, Repr

/-- The timeline of a sequence of levels, in cycles: cut at the rising edges, where every symbol begins (R81). -/
def timelineOf : List Level → Timeline
  | [] => ⟨0, []⟩
  | false :: rest =>
    match timelineOf rest with
    | ⟨before, ps⟩ => ⟨before + 1, ps⟩
  | true :: rest =>
    match timelineOf rest with
    | ⟨0, p :: ps⟩ => ⟨0, ⟨p.high + 1, p.low⟩ :: ps⟩
    | ⟨before, ps⟩ => ⟨0, ⟨1, before⟩ :: ps⟩

/-- A pulse measured in ns; it rests on R26 (log entry 17). -/
def Pulse.toNs (p : Pulse) : Pulse := ⟨cyclesToNs p.high, cyclesToNs p.low⟩

/-- A timeline measured in ns; it rests on R26 (log entry 17). -/
def Timeline.toNs (tl : Timeline) : Timeline := ⟨cyclesToNs tl.before, tl.pulses.map Pulse.toNs⟩

/-- The timeline that a logic analyser captures from the line, in ns (R111). It reads `WIRE` as it stands: where a history
spans a reset, the low of R171 across reset and clock configuration, which `WIRE` does not hold (R97, R173), is left
out, and a high phase cut by the reset runs into the first one of the next frame. What the spec means by the captured
line of such a history it does not say (DESIGN CHOICE, log entry 28). -/
def captureNs (w : List Segment) : Timeline := (timelineOf (levels w)).toNs

/-- Conformance of a bit symbol that is not the last of its frame (R111). -/
def conformsBit (tol : Nat) (c : Bool) (p : Pulse) : Bool :=
  if c then conformsBit1 tol p.high p.low else conformsBit0 tol p.high p.low

/-- Conformance of the last bit symbol of a frame and of the `RST` after it: the low phase is taken as the nominal one,
and the rest is counted toward `ConformsReset` (R111). -/
def conformsLast (tol : Nat) (c : Bool) (p : Pulse) : Bool :=
  conformsBit tol c ⟨p.high, cyclesToNs (lowCycles c)⟩ && conformsReset (p.low - cyclesToNs (lowCycles c))

/-- Whether pulses conform to the symbols after the first rising edge: as many pulses as bit symbols, and each one's
phases in the windows of its symbol (R111). Two `RST` in a row are one low period and conform to no pulses. -/
def conformsPulses (tol : Nat) : List Symbol → List Pulse → Bool
  | [], ps => ps.isEmpty
  | .b0 :: .rst :: syms, p :: ps => conformsLast tol false p && conformsPulses tol syms ps
  | .b1 :: .rst :: syms, p :: ps => conformsLast tol true p && conformsPulses tol syms ps
  | .b0 :: syms, p :: ps => conformsBit tol false p && conformsPulses tol syms ps
  | .b1 :: syms, p :: ps => conformsBit tol true p && conformsPulses tol syms ps
  | _ :: _, _ => false

/-- Whether a captured timeline conforms to a symbol trace (R111). The low before the first rising edge is an `RST` of
the trace exactly where it lasts the reset time (R81, R171). Log entry 26. -/
def conformsTimeline (tol : Nat) (syms : List Symbol) (tl : Timeline) : Bool :=
  match syms with
  | .rst :: rest => conformsReset tl.before && conformsPulses tol rest tl.pulses
  | other => !conformsReset tl.before && conformsPulses tol other tl.pulses

/-- What a receiver reads from a low period and what follows it: an `RST` first, where the low lasts at least the reset
time (R81), the 1 000 000 ns of R111 (log entry 26). -/
def afterLow (low : Nat) (syms : List Symbol) : List Symbol :=
  if conformsReset low then .rst :: syms else syms

/-- What a receiver reads from pulses: each a bit by its high phase, and then its low period (R81); none where a pulse
is read as no bit. -/
def receivedPulses (tol : Nat) : List Pulse → Option (List Symbol)
  | [] => some []
  | p :: ps =>
    match receivedBit tol p.high, receivedPulses tol ps with
    | some c, some syms => some (bitSymbol c :: afterLow p.low syms)
    | _, _ => none

/-- The symbol trace that a receiving strip reads from a captured timeline: the low before the first rising edge, long
from reset and clock configuration perhaps (R171), and then the pulses (R81). -/
def receivedTrace (tol : Nat) (tl : Timeline) : Option (List Symbol) :=
  (receivedPulses tol tl.pulses).map (afterLow tl.before)

/-- Whether a captured timeline conforms to the symbol trace of the state, with the strip's `TOL_NS` (R5, R111). A line
that was low for the reset time before the first symbol shows an `RST` that the core did not perform (R171, R121), and
conforms as well (log entry 26). -/
def State.conforms (s : State) (tl : Timeline) : Bool :=
  conformsTimeline s.par.tolNs s.syms tl || conformsTimeline s.par.tolNs (.rst :: s.syms) tl

/-- The symbol trace of one complete frame for `n` LEDs: `24*n` bit symbols and then one `RST`. A truncated frame
has no `RST` and is none (U1, R173). -/
def completeFrame (n : Nat) (syms : List Symbol) : Bool :=
  syms.length = 24 * n + 1 && syms.dropLast.all (· ≠ .rst) && syms.getLast? = some .rst

end Sys2Proof.Machine
end

