-- ==== Sys2Proof/Safety.lean ====
section
/-! DEFINITION. What counts as a safe run: the invariant of the core, and a state with no fault recorded. -/

namespace Sys2Proof.Machine

/-- No fault is recorded (R161). -/
def State.noFault (s : State) : Prop := s.err = 0#2

/-- `SEQ` is one of the states of a transmission (R173a). -/
def Seq.transmitting : Seq → Bool
  | .txHigh => true
  | .txLow => true
  | .txLatch => true
  | .cfgWrite => false
  | .cfgSettle => false
  | .cfgFclr => false
  | .cfgFailed => false
  | .idle => false
  | .exec => false

/-- No listed input asserts reset (R170). -/
def State.released (s : State) : Prop := ∀ i ∈ s.env, i.rstN = true

/-- The input that the state lists for the step `k` steps from now, or the unlisted one of that step (log entries 2
and 3): `rst_n` and `osc_fault_set` as they will stand on the ports, and the word listed for the command port. -/
def State.inputAt (s : State) (k : Nat) : Input :=
  (s.env[k]?).getD { rstN := true, cmd := none, oscFaultSet := Config.oscFaultSet (s.edges + k) }

/-- `cs` is a number's text in a base: at least one digit, the most significant first (R84). -/
def IsNumeral (base : Nat) (cs : List Char) (v : Nat) : Prop :=
  ∃ ds : List Nat, ds ≠ [] ∧ (∀ d ∈ ds, d < base) ∧ cs = ds.map Nat.digitChar ∧ v = Nat.ofDigits base ds.reverse

/-- `cs` is the text of a colour operand: decimal, or `0x` and hexadecimal (R84). -/
def IsColourText (cs : List Char) (v : Byte) : Prop :=
  IsNumeral 10 cs v.toNat ∨ ∃ hex, cs = '0' :: 'x' :: hex ∧ IsNumeral 16 hex v.toNat

/-- `cs` is the text of the index operand: decimal, possibly negative (R84). -/
def IsIndexText (cs : List Char) (i : Int) : Prop :=
  ∃ v : Nat, (IsNumeral 10 cs v ∧ i = v) ∨ ∃ ds, cs = '-' :: ds ∧ IsNumeral 10 ds v ∧ i = -v

/-- `cs` is what may stand after a line's command: blanks, and a comment after a semicolon (R84, log entry 21). -/
def IsLineEnd (cs : List Char) : Prop :=
  ∃ (blanks : Nat) (comment : List Char),
    cs = List.replicate blanks ' ' ∨ cs = List.replicate blanks ' ' ++ ';' :: comment

/-- `SEQ` after an edge with reset released: the table R127, row by row. -/
def nextSeq (s : State) : Seq :=
  match s.seq with
  | .cfgWrite => .cfgSettle
  | .cfgSettle => if s.cnt = 0 then .cfgFclr else .cfgSettle
  | .cfgFclr =>
    if s.input.oscFaultSet = false then .idle
    else if boundUsedUp s.par.maxRetry (s.retryCnt + 1) then .cfgFailed
    else .cfgFclr
  | .cfgFailed => .cfgFailed
  | .idle =>
    match s.input.cmd with
    | none => .idle
    | some w =>
      if opField w = 0b01#2 ∨ opField w = 0b10#2 then .exec else if opField w = 0b11#2 then .txHigh else .idle
  | .exec => .idle
  | .txHigh => if s.cnt = 0 then .txLow else .txHigh
  | .txLow =>
    if 0 < s.cnt then .txLow
    else if s.bitIdx = 0#3 ∧ s.par.fbLen - 1 ≤ s.byteIdx then .txLatch
    else .txHigh
  | .txLatch => if s.cnt = 0 then .idle else .txLatch

/-- How many cycles an operation lasts at the cycle level (R113, R117d, R184); a command that stays off the wire and
`CLKCFG` count one here, their duration is not specified (R140, R96). -/
def operationCycles (s : State) : Instr → Nat
  | .clkcfg => 1
  | .reserved _ => 1
  | .clear _ => 1
  | .set _ _ _ _ => 1
  | .transmit _ => s.frameCycles
  | .bit0 => highCycles false + lowCycles false
  | .bit1 => highCycles true + lowCycles true
  | .reset => s.par.tResetCyc

/-- Two states that agree in everything but the inputs consumed so far: `OSC_FAULT`, which the oscillator may set at
any cycle (R25), the listed inputs and the step counter. This is how the two levels are compared (R7, R128). -/
def sameButInputs (s t : State) : Prop :=
  { s with oscFault := t.oscFault, env := t.env, edges := t.edges } = t

/-- The invariant of the core: what holds at reset and after every step and every edge. -/
structure Inv (s : State) : Prop where
  /-- The parameters are in range (R5). -/
  par : s.par.wellFormed
  /-- The frame buffer is in canonical form. -/
  fbForm : Memory.wf s.fb
  /-- Only offsets `0 .. 3*N-1` are written (R50). -/
  fbRange : ∀ c ∈ s.fb, c.1 < s.par.fbLen
  /-- `BYTE_IDX` is an offset of the frame buffer (R20). -/
  byteRange : s.byteIdx < s.par.fbLen
  /-- The line is high exactly in `TX_HIGH` (R22, R122). -/
  line : s.dout = true ↔ s.seq = .txHigh
  /-- `CNT` holds a value of its width (R28, log entry 9). -/
  cntRange : s.cnt < 2 ^ s.par.cntWidth
  /-- `CNT` in the settle wait (R91, R93). -/
  settle : s.seq = .cfgSettle → s.cnt ≤ s.par.tSettleCyc
  /-- `CNT` in a high phase (R124). -/
  high : s.seq = .txHigh → s.cnt < highCycles s.curBit
  /-- `CNT` in a low phase (R125). -/
  low : s.seq = .txLow → s.cnt < lowCycles s.curBit
  /-- `CNT` in the latch period (R126). -/
  latch : s.seq = .txLatch → s.cnt < s.par.tResetCyc
  /-- `CUR_BIT` is `FB[BYTE_IDX][BIT_IDX]` during a bit symbol (R28). -/
  bit : s.seq = .txHigh ∨ s.seq = .txLow → s.curBit = (s.fbByte s.byteIdx).getLsbD s.bitIdx.toNat
  /-- The clock registers hold their reset values before R91 (R24, R35). -/
  clockReset : s.seq = .cfgWrite → s.clkSrc = s.par.clkSrcReset ∧ s.clkDiv = s.par.clkDivReset
  /-- The clock registers hold their target values after R91 (R24). -/
  clockTarget : s.seq ≠ .cfgWrite → s.clkSrc = s.par.clkSrcTarget ∧ s.clkDiv = s.par.clkDivTarget
  /-- No fault is recorded before the fault-clearing loop ends (R146). -/
  errEarly : s.seq = .cfgWrite ∨ s.seq = .cfgSettle ∨ s.seq = .cfgFclr → s.err = 0#2
  /-- `ERR = 1` is exactly `CFG_FAILED` (R147, R151). -/
  errTimeout : s.err = 1#2 ↔ s.seq = .cfgFailed
  /-- `RETRY_CNT` counts from 0 (R27, R35). -/
  retryZero : s.seq = .cfgWrite ∨ s.seq = .cfgSettle → s.retryCnt = 0
  /-- While the core is not stopped, the retries are not used up (R94d). -/
  retryLeft : s.seq ≠ .cfgFailed → boundUsedUp s.par.maxRetry s.retryCnt = false
  /-- A timeout happens when `RETRY_CNT = MAX_RETRY`, a finite bound (R146). -/
  retryFailed : s.seq = .cfgFailed → s.par.maxRetry = .finite s.retryCnt

end Sys2Proof.Machine
end

