-- ==== Sys2Proof/Certificates/Slice0/Obligations.lean ====
section
/-! DEFINITION. The statements for the provers. Each docstring names the rule of spec/ it formalises. -/

open Sys2Proof Sys2Proof.Machine

/-! ### Encodings -/

/-- A few words written out from R74, R76 and the table's waveforms decode to what they stand for (R80). How a row of
the opcode table is handed to the decoder (whole bytes around the waveforms of 23 and 25 cycles, no bits for `CLKCFG`,
48 bits around the port's 42) is the model's placing, a DESIGN CHOICE: log entry 16. -/
def Obligations.SpecWordsDecode : Prop :=
  decode 0x10000000000#42 = .clear 0#40 ∧
    decode 0x30000000000#42 = .transmit 0#40 ∧
    decode 0x2000102FF03#42 = .set 1#16 0x02#8 0xFF#8 0x03#8 ∧
    decode 0x2FFFF090909#42 = .set (BitVec.ofInt 16 (-1)) 9#8 9#8 9#8 ∧
    decode 0#42 = .reserved 0#40 ∧
    decodeTableWord 24 0x7C0000 = some .bit0 ∧
    decodeTableWord 32 0x1FFFE00 = some .bit1 ∧
    decodeTableWord 20000 0 = some .reset ∧
    decodeTableWord 0 0 = some .clkcfg ∧
    decodeTableWord 48 0x40000000000 = none

/-- Every operation that has a command word is read back from it, with every operand at every value (R74, R76). -/
def Obligations.DecodeReadsBackEncode : Prop :=
  ∀ i : Instr, i.wellFormed = true → ∃ w, encode i = some w ∧ decode w = i

/-- Every word of 42 bits is the word of the operation it decodes to: no bit is dropped (R74). -/
def Obligations.EncodeReadsBackDecode : Prop :=
  ∀ w : CmdWord, encode (decode w) = some w

/-- The opcode map R76 with its masks, and the fields of R74 that each operation uses. -/
def Obligations.OpcodeMapByMask : Prop :=
  ∀ w : CmdWord,
    (w &&& 0x30000000000#42 = 0x00000000000#42 ↔ decode w = .reserved (operandBits w)) ∧
    (w &&& 0x30000000000#42 = 0x10000000000#42 ↔ decode w = .clear (operandBits w)) ∧
    (w &&& 0x30000000000#42 = 0x20000000000#42 ↔
      decode w = .set (w.extractLsb' 24 16) (w.extractLsb' 16 8) (w.extractLsb' 8 8) (w.extractLsb' 0 8)) ∧
    (w &&& 0x30000000000#42 = 0x30000000000#42 ↔ decode w = .transmit (operandBits w))

/-- R79: for `CLEAR` and `TRANSMIT` the fields below `op` have no effect, at either level, whatever the oscillator
reports; the canonical words have them zero. -/
def Obligations.IgnoredFieldsHaveNoEffect : Prop :=
  encode (.clear 0#40) = some 0x10000000000#42 ∧ encode (.transmit 0#40) = some 0x30000000000#42 ∧
  ∀ (s : State) (rest : List Input) (w v : CmdWord) (osc : Bool), opField w = opField v →
    opField w = 0b01#2 ∨ opField w = 0b11#2 →
    step { s with env := ⟨true, some w, osc⟩ :: rest } = step { s with env := ⟨true, some v, osc⟩ :: rest } ∧
      edge { s with env := ⟨true, some w, osc⟩ :: rest } = edge { s with env := ⟨true, some v, osc⟩ :: rest }

/-- Which text gives which word (R84, R74, R76): `CLEAR` gives `0x10000000000`, `TRANSMIT` gives `0x30000000000`, and
`SET idx, r, g, b` the word of `op = 0b10` with the numbers its operand texts denote in this order; a program's lines
give their words in order. Blanks and a comment may follow a line (the model's reading of the syntax, log entry 21).
Whatever else a line holds, if it assembles then its word decodes to the command it was read as, with ignored fields
zero. -/
def Obligations.AssembledLineDecodes : Prop :=
  (∀ tail : List Char, IsLineEnd tail →
      assembleLine (['C', 'L', 'E', 'A', 'R'] ++ tail) = some 0x10000000000#42 ∧
        assembleLine (['T', 'R', 'A', 'N', 'S', 'M', 'I', 'T'] ++ tail) = some 0x30000000000#42 ∧
        ∀ (i : Int) (r g b : Byte) (iText rText gText bText : List Char),
          -32768 ≤ i → i ≤ 32767 → IsIndexText iText i →
          IsColourText rText r → IsColourText gText g → IsColourText bText b →
          assembleLine
              (['S', 'E', 'T', ' '] ++ iText ++ [',', ' '] ++ rText ++ [',', ' '] ++ gText ++ [',', ' '] ++ bText ++
                tail) =
            some (wordOf 0b10#2 (setOperands (BitVec.ofInt 16 i) r g b))) ∧
    (∀ (lines : List (List Char)) (ws : List CmdWord),
      assemble lines = some ws ↔ lines.map assembleLine = ws.map some) ∧
    ∀ (line : List Char) (w : CmdWord), assembleLine line = some w →
      parseLine line = some (decode w) ∧ canonical (decode w) = decode w

/-! ### The host's program -/

/-- A program's words are offered in order, each held until accepted, at both levels (R84, R73, R178): where the host
lists no other word, the first word not yet accepted stands on the port; a step or an edge that begins with
`cmd_ready = 0`, or takes a reset, leaves it there, and one that accepts it goes on to the next. The model's choice, log
entry 27: that the words stand in the state; that a word the host lists goes before the program's, which then waits,
where R178 says that a word replaced by another is never executed (DESIGN CHOICE); and that the host goes on with its
program after a reset (DESIGN CHOICE, unsafe). -/
def Obligations.ProgramWordHeldUntilAccepted : Prop :=
  ∀ s t : State, step s = .next t ∨ edge s = .next t →
    (s.listedInput.cmd = none → s.input.cmd = s.prog.head?) ∧
      (s.cmdReady = false ∨ s.input.rstN = false → t.prog = s.prog) ∧
      (∀ w, s.listedInput.cmd = some w → s.input.cmd = some w ∧ t.prog = s.prog) ∧
      (s.cmdReady = true → s.input.rstN = true → s.listedInput.cmd = none → t.prog = s.prog.tail)

/-- A program run from `IDLE` does its commands one after another, each whole before the next (R73, R84): after as many
steps as it has words the core has done what the operations do in this order and is ready for what follows; in
everything but the inputs consumed. One step for each command is the grain of log entry 1; that the words stand in the
state is log entry 27. -/
def Obligations.ProgramRunsInOrder : Prop :=
  ∀ (s : State) (ws more : List CmdWord), s.seq = .idle → (∀ i ∈ s.env, i.rstN = true ∧ i.cmd = none) →
    s.prog = ws ++ more →
    ∃ t u, Host.Core.run core ws.length s = .next t ∧ runCommands ws s = .next u ∧ t.prog = more ∧
      t.seq = .idle ∧ sameButInputs { t with prog := u.prog } u

/-! ### The step -/

/-- The operation that the sequencer and the port select is what a step runs (the model's grain of a step, log entry
1); around it stand the sequencer's own advance after a micro-operation (R125, R126) and the sampling of the inputs
(R70). -/
def Obligations.StepRunsCurrentOperation : Prop :=
  ∀ (s : State) (i : Instr), s.input.rstN = true → s.current = some i →
    step s = andThen (andThen (exec i s) (resume i)) (fun t => .next (t.sample s))

/-- A word offered at `IDLE` is decoded and run by that very step (R73, R76). That the step runs the operation whole
and takes one input for all its cycles is the model's choice (DESIGN CHOICE, log entry 23; the grain, log entry 1). -/
def Obligations.OfferedWordRunsAtIdle : Prop :=
  ∀ (s : State) (w : CmdWord), s.input.rstN = true → s.seq = .idle → s.input.cmd = some w →
    s.current = some (decode w) ∧
      step s = andThen (exec (decode w) s) (fun t => .next (t.sample s))

/-- A row of the opcode table placed for the next step is what the next step runs (the model's placing, log entry
16). -/
def Obligations.PlacedRowIsRunNext : Prop :=
  ∀ (s : State) (nbits w : Nat) (i : Instr), 1 ≤ s.par.tResetCyc → decodeTableWord nbits w = some i →
    (s.withFetchWord nbits w).input.rstN = true ∧ (s.withFetchWord nbits w).current = some i

/-- Every operation answers a next state from every state: the core's faults are recorded, they stop nothing
(R150, R151). -/
def Obligations.EveryOperationAnswers : Prop :=
  ∀ (i : Instr) (s : State), ∃ t, exec i s = .next t

/-! ### Reset -/

/-- R35: the reset values that the spec gives, and the derived values. -/
def Obligations.ResetLeavesSpecValues : Prop :=
  State.reset.seq = .cfgWrite ∧ State.reset.dout = false ∧
    State.reset.clkSrc = State.reset.par.clkSrcReset ∧ State.reset.clkDiv = State.reset.par.clkDivReset ∧
    State.reset.retryCnt = 0 ∧ State.reset.err = 0#2 ∧ State.reset.wire = [] ∧ State.reset.syms = [] ∧
    State.reset.clkState = .unconfigured ∧ State.reset.fSys = State.reset.par.fReset ∧
    State.reset.busy = true ∧ State.reset.clkStable = false ∧
    (∀ k, State.reset.fbByte k = Config.fbReset 0 k) ∧ State.reset.oscFault = Config.oscFaultReset 0

/-- Reset overrides every state at both levels: the values of R35 again with fresh draws, the command offered is not
accepted, the line goes low, and the histories keep what was emitted (R170, R171, R173). That every step with reset
asserted draws afresh, where R35 draws once per reset, and that nothing of the cut cycle is recorded, are the model's
choice (DESIGN CHOICE, log entry 15; the counter of the draws, log entry 5). So is that the host goes on with its
program after a reset, the clause on `prog` (DESIGN CHOICE, log entry 27, unsafe). -/
def Obligations.ResetInputOverrides : Prop :=
  ∀ s : State, s.input.rstN = false →
    ∃ t, step s = .next t ∧ edge s = .next t ∧ t.seq = .cfgWrite ∧ t.dout = false ∧ t.err = 0#2 ∧
      t.retryCnt = 0 ∧ t.clkSrc = s.par.clkSrcReset ∧ t.clkDiv = s.par.clkDivReset ∧ t.par = s.par ∧
      (∀ k, t.fbByte k = Config.fbReset (s.resets + 1) k) ∧ t.oscFault = Config.oscFaultReset (s.resets + 1) ∧
      t.wire = s.wire ∧ t.syms = s.syms ∧ t.prog = s.prog ∧ t.cmdReady = false ∧ t.clkState = .unconfigured ∧
      t.fSys = s.par.fReset

/-! ### Clock configuration -/

/-- R91: step 1 writes the clock registers, clears the flag, loads the settle count. -/
def Obligations.ClkcfgWritesRegisters : Prop :=
  ∀ s : State, s.seq = .cfgWrite →
    exec .clkcfg s =
      .next
        { s with
          clkSrc := s.par.clkSrcTarget
          clkDiv := s.par.clkDivTarget
          oscFault := false
          cnt := s.par.tSettleCyc
          seq := .cfgSettle }

/-- R93: one cycle of the settle wait, and that the wait lasts `CNT + 1` steps. -/
def Obligations.ClkcfgSettleWait : Prop :=
  (∀ s : State, s.seq = .cfgSettle →
      exec .clkcfg s = .next (if 0 < s.cnt then { s with cnt := s.cnt - 1 } else { s with seq := .cfgFclr })) ∧
    ∀ (s : State) (k : Nat), s.seq = .cfgSettle → s.released →
      (k ≤ s.cnt → ∃ t, Host.Core.run core k s = .next t ∧ t.seq = .cfgSettle ∧ t.cnt = s.cnt - k) ∧
        ∃ t, Host.Core.run core (s.cnt + 1) s = .next t ∧ t.seq = .cfgFclr

/-- One iteration of the fault-clearing loop for both answers of the oscillator (R94, R95). That the answer is what stands
on `osc_fault_set` in the step is log entry 3 (DEDUCED), that the iteration is one step log entry 11 (DESIGN CHOICE). -/
def Obligations.ClkcfgLoopIteration : Prop :=
  ∀ s : State, s.seq = .cfgFclr →
    (s.input.oscFaultSet = false → exec .clkcfg s = .next { s with oscFault := false, seq := .idle }) ∧
      (s.input.oscFaultSet = true → boundUsedUp s.par.maxRetry (s.retryCnt + 1) = false →
        exec .clkcfg s = .next { s with oscFault := true, retryCnt := s.retryCnt + 1 }) ∧
      (s.input.oscFaultSet = true → boundUsedUp s.par.maxRetry (s.retryCnt + 1) = true →
        exec .clkcfg s =
          .next
            { s with
              oscFault := true
              retryCnt := s.retryCnt + 1
              err := if s.err = 0#2 then 1#2 else s.err
              seq := .cfgFailed })

/-- `CLKCFG` runs once per reset (R90, R95b, R99). The spec never runs it again, so that its operation is the identity
after a timeout and once the clock is stable is the model's reading (DEDUCED, log entry 13). -/
def Obligations.ClkcfgRunsOnce : Prop :=
  ∀ s : State, s.seq = .cfgFailed ∨ s.clkStable = true → exec .clkcfg s = .next s

/-- R97 and the frame of `CLKCFG`: no line, no history, no byte of the frame buffer, no working register but `CNT`;
`ERR` and the clock registers only in the steps that write them. -/
def Obligations.ClkcfgFrame : Prop :=
  ∀ s t : State, exec .clkcfg s = .next t →
    t.dout = s.dout ∧ t.wire = s.wire ∧ t.syms = s.syms ∧ (∀ k, t.fbByte k = s.fbByte k) ∧ t.fb = s.fb ∧
      t.byteIdx = s.byteIdx ∧ t.bitIdx = s.bitIdx ∧ t.curBit = s.curBit ∧ t.par = s.par ∧
      t.env = s.env ∧ t.prog = s.prog ∧ t.edges = s.edges ∧ t.resets = s.resets ∧
      (s.seq ≠ .cfgWrite → s.seq ≠ .cfgSettle → t.cnt = s.cnt) ∧
      (s.seq ≠ .cfgWrite → s.seq ≠ .cfgFclr → t.oscFault = s.oscFault) ∧
      (t.seq ≠ .cfgFailed → t.err = s.err) ∧
      (s.seq ≠ .cfgWrite → t.clkSrc = s.clkSrc ∧ t.clkDiv = s.clkDiv) ∧
      (s.seq ≠ .cfgFclr → t.retryCnt = s.retryCnt) ∧
      (Inv s → s.clkStable = false → s.dout = false ∧ t.dout = false)

/-- The hang of R95(a): with `MAX_RETRY = INF`, as long as the oscillator reports a fault the core stays in the loop,
counts, and accepts nothing. That `k` steps are `k` iterations, one step each, is the model's choice (DESIGN CHOICE, log
entry 11). -/
def Obligations.ClkcfgHangsWhileFaultReported : Prop :=
  ∀ (s : State) (k : Nat), s.seq = .cfgFclr → s.par.maxRetry = .inf → s.released →
    (∀ j < k, (s.inputAt j).oscFaultSet = true) →
    ∃ t, Host.Core.run core k s = .next t ∧ t.seq = .cfgFclr ∧ t.retryCnt = s.retryCnt + k ∧
      t.cmdReady = false ∧ t.err = s.err ∧ t.fb = s.fb

/-- The timeout of R95(b): after `MAX_RETRY` iterations that each end with a fault, the core records
`ClockStabilizationTimeout` and stays stopped, whatever is offered, until reset. That it does so after exactly `m + 1`
steps, one step an iteration, is the model's choice (DESIGN CHOICE, log entry 11). -/
def Obligations.ClkcfgTimesOut : Prop :=
  ∀ (s : State) (m k : Nat), s.seq = .cfgFclr → s.err = 0#2 → s.par.maxRetry = .finite (s.retryCnt + (m + 1)) →
    s.released → (∀ j < m + 1, (s.inputAt j).oscFaultSet = true) →
    ∃ t, Host.Core.run core (m + 1 + k) s = .next t ∧ t.seq = .cfgFailed ∧ t.err = 1#2 ∧
      t.retryCnt = s.retryCnt + (m + 1) ∧ t.cmdReady = false ∧ t.clkStable = false ∧ t.fb = s.fb

/-- The whole of `CLKCFG` (R90): from `CFG_WRITE`, with `m` iterations that report a fault and then one that does
not, the bound not used up, the core is `IDLE` and stable after `T_SETTLE_CYC + m + 3` steps (one step an iteration is
the model's choice, log entry 11). A word of the host's program waits meanwhile (R98, R178; log entry 27). That `F_SYS` is
then 20 MHz is the assumption of R26 on the environment (D13, errs toward proving; log entry 17, unsafe). -/
def Obligations.ClkcfgReachesStable : Prop :=
  ∀ (s : State) (m : Nat), s.seq = .cfgWrite → s.released →
    (∀ j < m, (s.inputAt (s.par.tSettleCyc + 2 + j)).oscFaultSet = true) →
    (s.inputAt (s.par.tSettleCyc + 2 + m)).oscFaultSet = false →
    boundUsedUp s.par.maxRetry (s.retryCnt + m) = false →
    ∃ t, Host.Core.run core (s.par.tSettleCyc + m + 3) s = .next t ∧ t.seq = .idle ∧ t.clkStable = true ∧
      t.fSys = Config.fTarget ∧ t.retryCnt = s.retryCnt + m ∧ t.oscFault = false ∧
      t.clkSrc = s.par.clkSrcTarget ∧ t.clkDiv = s.par.clkDivTarget ∧ t.err = s.err ∧ t.fb = s.fb ∧
      t.dout = s.dout ∧ t.wire = s.wire ∧ t.syms = s.syms ∧ t.prog = s.prog

/-- Before the clock is stable no command is accepted at either level (R98). What a step runs meanwhile is `CLKCFG`: the
steps of log entry 1 (DEDUCED), and in `CFG_FAILED`, where R161 has no enabled step but reset, a next state that waits for
it, log entry 19 (DEDUCED). -/
def Obligations.NoCommandBeforeStable : Prop :=
  ∀ s : State, s.clkStable = false → s.cmdReady = false ∧ s.accepted = none ∧ s.current = some .clkcfg

/-- R99: once the clock is stable, only reset ends that; `CLKCFG` does not run again, its registers stay and
`OSC_FAULT` is never cleared. -/
def Obligations.StableUntilReset : Prop :=
  ∀ s t : State, s.clkStable = true → s.input.rstN = true → step s = .next t ∨ edge s = .next t →
    t.clkStable = true ∧ t.clkSrc = s.clkSrc ∧ t.clkDiv = s.clkDiv ∧ t.retryCnt = s.retryCnt ∧
      t.oscFault = (s.oscFault || s.input.oscFaultSet)

/-! ### The pulse primitives -/

/-- R106: `BIT0` is 5 cycles high, 18 low, symbol `B0`, and nothing else; 23 cycles, 1150 ns. The lengths in ns rest on
the clock being exactly 20 MHz, the assumption of R26 on the environment (D13; log entry 17, unsafe). -/
def Obligations.Bit0Waveform : Prop :=
  (∀ s : State,
    exec .bit0 s =
      .next { s with wire := s.wire ++ [⟨true, 5⟩, ⟨false, 18⟩], syms := s.syms ++ [.b0], dout := false }) ∧
    wireCycles [⟨true, 5⟩, ⟨false, 18⟩] = 23 ∧ cyclesToNs 23 = 1150 ∧ cyclesToNs 5 = 250 ∧ cyclesToNs 18 = 900

/-- R107: `BIT1` is 16 cycles high, 9 low, symbol `B1`, and nothing else; 25 cycles, 1250 ns. The lengths in ns rest on
the clock being exactly 20 MHz, the assumption of R26 on the environment (D13; log entry 17, unsafe). -/
def Obligations.Bit1Waveform : Prop :=
  (∀ s : State,
    exec .bit1 s =
      .next { s with wire := s.wire ++ [⟨true, 16⟩, ⟨false, 9⟩], syms := s.syms ++ [.b1], dout := false }) ∧
    wireCycles [⟨true, 16⟩, ⟨false, 9⟩] = 25 ∧ cyclesToNs 25 = 1250 ∧ cyclesToNs 16 = 800 ∧ cyclesToNs 9 = 450

/-- R108: `RESET` is `T_RESET_CYC` cycles low, at least 20000, which is at least 1000 µs; it never raises the
line, adjacent low segments mean one (R9), and the core is busy for the whole period. The 1000 µs rest on the clock
being exactly 20 MHz, the assumption of R26 on the environment (D13; log entry 17, unsafe). -/
def Obligations.ResetLatchWaveform : Prop :=
  ∀ s : State,
    exec .reset s =
        .next { s with wire := s.wire ++ [⟨false, s.par.tResetCyc⟩], syms := s.syms ++ [.rst], dout := false } ∧
      (s.par.wellFormed → 20000 ≤ s.par.tResetCyc ∧ 1000000 ≤ cyclesToNs s.par.tResetCyc) ∧
      cyclesToNs 20000 = 1000000 ∧
      (∀ a b : Nat, levels [⟨false, a⟩, ⟨false, b⟩] = levels [⟨false, a + b⟩]) ∧
      (s.seq = .txLatch → s.busy = true)

/-- R111: the core's own waveforms conform for every tolerance, and at 150 ns or less no pulse is both bits. That the
waveforms have these lengths in ns rests on the clock being exactly 20 MHz, the assumption of R26 on the environment
(D13; log entry 17, unsafe); whole numbers of ns are log entry 25. -/
def Obligations.WaveformsConform : Prop :=
  (∀ tol : Nat,
      conformsBit0 tol (cyclesToNs (highCycles false)) (cyclesToNs (lowCycles false)) = true ∧
        conformsBit1 tol (cyclesToNs (highCycles true)) (cyclesToNs (lowCycles true)) = true) ∧
    (∀ p : Params, p.wellFormed → conformsReset (cyclesToNs p.tResetCyc) = true) ∧
    ∀ tol h l l' : Nat, tol ≤ 150 → ¬(conformsBit0 tol h l = true ∧ conformsBit1 tol h l' = true)

/-- A captured timeline that conforms decodes to a unique symbol trace (R111): to every tolerance for which the two
high-phase windows do not overlap, the typical 150 ns among them, a receiver that takes each bit by its high phase and
an `RST` by a low period of the reset time (R81), before the first rising edge too (R171), reads exactly the trace the
timeline conforms to. That a long low before the first edge must be an `RST` of the trace, and how pulses that conform to
nothing are read, is log entry 26, the latter not claimed here; whole numbers of ns are log entry 25. -/
def Obligations.ConformingTimelineDecodes : Prop :=
  ∀ (tol : Nat) (syms : List Symbol) (tl : Timeline), tol < 275 → conformsTimeline tol syms tl = true →
    receivedTrace tol tl = some syms

/-! ### TRANSMIT -/

/-- R116: `TRANSMIT` sends bit `7 - (k mod 8)` of `FB[k div 8]` as the `k`-th symbol, then `RESET` once, and returns
to `IDLE`, ready again; everything but the line, the histories and the working registers is unchanged. It is
accepted only at `IDLE`, hence with the clock stable and the line low. -/
def Obligations.TransmitSendsFrame : Prop :=
  ∀ (s : State) (ignored : Operands),
    (s.seq = .idle →
      ∃ t, exec (.transmit ignored) s = .next t ∧ t.wire = s.wire ++ s.frameSegments ∧
        t.syms = s.syms ++ s.frameSymbols ∧ t.dout = false ∧ t.seq = .idle ∧ t.cmdReady = true ∧
        (∀ k, t.fbByte k = s.fbByte k) ∧
        t =
          { s with
            wire := t.wire
            syms := t.syms
            dout := t.dout
            byteIdx := t.byteIdx
            bitIdx := t.bitIdx
            curBit := t.curBit
            cnt := t.cnt }) ∧
      (s.seq ≠ .idle → exec (.transmit ignored) s = .next s) ∧
      (s.seq = .idle → s.clkStable = true ∧ (Inv s → s.dout = false))

/-- Exactly `24*N` bit symbols and then exactly one `RST` are appended, so the frame is complete (R117a). -/
def Obligations.TransmitCountsSymbols : Prop :=
  ∀ (s : State) (ignored : Operands), s.seq = .idle →
    ∃ t bits, exec (.transmit ignored) s = .next t ∧ t.syms = s.syms ++ (bits ++ [.rst]) ∧
      bits.length = 24 * s.par.n ∧ .rst ∉ bits ∧ completeFrame s.par.n (bits ++ [.rst]) = true

/-- What `TRANSMIT` puts on the line conforms for every tolerance, with zero error (R111): captured by itself, and, for
a tolerance whose windows do not overlap, as the continuation of a timeline that conforms; the strip then reads back the
symbols sent, and before them an `RST` if the line was low for the reset time before the frame (R81, R171). How a trace
conforms to the low before the first rising edge, on which the continuation rests, and the 1 000 000 ns by which that
low is read as an `RST`, are log entry 26 (the former a DESIGN CHOICE); a history that spans a reset is read as log
entry 28 says (DESIGN CHOICE). The lengths in ns rest on the clock being exactly 20 MHz, the assumption of R26 on the
environment (D13; log entry 17, unsafe); whole numbers of ns are log entry 25. -/
def Obligations.CapturedFrameConforms : Prop :=
  ∀ (s : State) (ignored : Operands), s.par.wellFormed → s.seq = .idle →
    ∃ t segments symbols, exec (.transmit ignored) s = .next t ∧ t.wire = s.wire ++ segments ∧
      t.syms = s.syms ++ symbols ∧ conformsTimeline s.par.tolNs symbols (captureNs segments) = true ∧
      (s.par.tolNs < 275 → receivedTrace s.par.tolNs (captureNs segments) = some symbols) ∧
      (∀ idle, s.par.tolNs < 275 →
        receivedTrace s.par.tolNs (captureNs (⟨false, idle⟩ :: segments)) =
          some (if 1000000 ≤ cyclesToNs idle then .rst :: symbols else symbols)) ∧
      (s.par.tolNs < 275 → s.conforms (captureNs s.wire) = true → t.conforms (captureNs t.wire) = true)

/-- The duration of a frame, its bounds, and how often it raises the line (R117d, R117e). -/
def Obligations.TransmitDurationAndRises : Prop :=
  ∀ (s : State) (ignored : Operands), s.seq = .idle →
    ∃ t frame, exec (.transmit ignored) s = .next t ∧ levels t.wire = levels s.wire ++ frame ∧
      frame.length = 23 * s.zeroBits + 25 * s.oneBits + s.par.tResetCyc ∧
      s.oneBits + s.zeroBits = 24 * s.par.n ∧
      552 * s.par.n + s.par.tResetCyc ≤ frame.length ∧ frame.length ≤ 600 * s.par.n + s.par.tResetCyc ∧
      risingEdges false frame = 24 * s.par.n

/-- Idempotence: transmitting twice in a row appends the same segments and the same symbols twice (R120). -/
def Obligations.TransmitIdempotent : Prop :=
  ∀ (s : State) (ignored : Operands), s.seq = .idle →
    ∃ t u segments symbols, exec (.transmit ignored) s = .next t ∧ exec (.transmit ignored) t = .next u ∧
      t.wire = s.wire ++ segments ∧ u.wire = t.wire ++ segments ∧
      t.syms = s.syms ++ symbols ∧ u.syms = t.syms ++ symbols

/-! ### The frame buffer operations -/

/-- R136: `CLEAR` zeroes every byte of the frame buffer and changes nothing else. -/
def Obligations.ClearZeroesBuffer : Prop :=
  ∀ (s : State) (ignored : Operands),
    (s.seq = .idle →
      ∃ t, exec (.clear ignored) s = .next t ∧ (∀ k < 3 * s.par.n, t.fbByte k = 0#8) ∧
        (∀ k, 3 * s.par.n ≤ k → t.fbByte k = s.fbByte k) ∧ t = { s with fb := t.fb }) ∧
      (s.seq ≠ .idle → exec (.clear ignored) s = .next s)

/-- R138: the three cases of `SET`, each with its frame: a negative index changes nothing, an index in range stores
Green, Red, Blue at `3*idx` and no other byte, an index of `N` or more records `IndexOutOfRange` only. -/
def Obligations.SetThreeCases : Prop :=
  ∀ (s : State) (idx : IndexField) (r g b : Byte), s.seq = .idle →
    (idx.toInt < 0 → exec (.set idx r g b) s = .next s) ∧
      (0 ≤ idx.toInt → idx.toInt < s.par.n →
        ∃ t, exec (.set idx r g b) s = .next t ∧ t.fbByte (3 * idx.toNat) = g ∧
          t.fbByte (3 * idx.toNat + 1) = r ∧ t.fbByte (3 * idx.toNat + 2) = b ∧
          (∀ k, k < 3 * idx.toNat ∨ 3 * idx.toNat + 2 < k → t.fbByte k = s.fbByte k) ∧
          t = { s with fb := t.fb }) ∧
      ((s.par.n : Int) ≤ idx.toInt →
        exec (.set idx r g b) s = .next { s with err := if s.err = 0#2 then 2#2 else s.err })

/-- R63: the three testable memory laws, read through the core's own read of one byte, which answers only inside
`0 .. 3*N-1` (R50). -/
def Obligations.TestableMemoryLaws : Prop :=
  (∀ (s : State) (idx : IndexField) (r g b : Byte), s.seq = .idle → 0 ≤ idx.toInt → idx.toInt < s.par.n →
      ∃ t, exec (.set idx r g b) s = .next t ∧ t.readFb (3 * idx.toNat) = some g ∧
        t.readFb (3 * idx.toNat + 1) = some r ∧ t.readFb (3 * idx.toNat + 2) = some b) ∧
    (∀ (s : State) (ignored : Operands) (led : Nat), s.seq = .idle → led < s.par.n →
      ∃ t, exec (.clear ignored) s = .next t ∧ t.readFb (3 * led) = some 0#8 ∧
        t.readFb (3 * led + 1) = some 0#8 ∧ t.readFb (3 * led + 2) = some 0#8) ∧
    ∀ (s : State) (r g b : Byte),
      ∃ t, exec (.set (BitVec.ofInt 16 (-1)) r g b) s = .next t ∧ ∀ k, t.readFb k = s.readFb k

/-- The index of `SET` in its three ranges, with no value left without a rule; the offsets of a valid one lie in the
frame buffer and need 17 bits (R139). -/
def Obligations.IndexRangesAndOffsets : Prop :=
  ∀ (n : Nat) (idx : IndexField), n ≤ 32767 →
    (idx.toInt < 0 ↔ indexRange n idx = .negative) ∧
      ((0 ≤ idx.toInt ∧ idx.toInt < n) ↔ indexRange n idx = .valid idx.toNat) ∧
      ((n : Int) ≤ idx.toInt ↔ indexRange n idx = .tooLarge) ∧
      (indexRange n idx = .valid idx.toNat →
        baseOffset idx.toNat + 2 ≤ 3 * n - 1 ∧ baseOffset idx.toNat + 2 ≤ 98300 ∧ 98300 < 2 ^ 17)

/-- R149: accepting a reserved word records `IllegalCommand`, unless a fault is recorded, and changes nothing
else. -/
def Obligations.ReservedWordRecordsIllegal : Prop :=
  ∀ (s : State) (rest : Operands), s.seq = .idle →
    exec (.reserved rest) s = .next { s with err := if s.err = 0#2 then 3#2 else s.err }

/-! ### Holding, faults, histories: rules about the whole machine -/

/-- The working registers hold values of their widths (R28), in every state that meets the invariant. The widths are
`ceil(log2(3*N))`, at least 1, and `ceil(log2(max(T_RESET_CYC, T_SETTLE_CYC, 16)))`, each the least number of bits that
counts so many values; 15 bits for 20000 and a settle time of at most 32767. Where `T_SETTLE_CYC` is itself that power of
two, which R91 loads whole, `CNT` has one bit more: the model's reading (DEDUCED, log entry 9). -/
def Obligations.RegistersFitTheirWidths : Prop :=
  (∀ s : State, Inv s → s.byteIdx < 2 ^ s.par.byteIdxWidth ∧ s.cnt < 2 ^ s.par.cntWidth) ∧
    (∀ p : Params, 1 ≤ p.n →
      1 ≤ p.byteIdxWidth ∧ ∀ w, 1 ≤ w → (3 * p.n ≤ 2 ^ w ↔ p.byteIdxWidth ≤ w)) ∧
    (∀ (p : Params) (w : Nat),
      p.tResetCyc ≤ 2 ^ w ∧ p.tSettleCyc ≤ 2 ^ w ∧ 16 ≤ 2 ^ w ↔ p.cntFormula ≤ w) ∧
    (∀ p : Params, p.tSettleCyc ≠ 2 ^ p.cntFormula → p.cntWidth = p.cntFormula) ∧
    (∀ p : Params, p.tSettleCyc = 2 ^ p.cntFormula → p.cntWidth = p.cntFormula + 1) ∧
    ∀ p : Params, p.tResetCyc = 20000 → p.tSettleCyc ≤ 32767 → p.cntWidth = 15

/-- The derived flags and the ready signal as functions of `SEQ` (R23, R31, R72). -/
def Obligations.FlagsFollowSequencer : Prop :=
  ∀ s : State,
    (s.cmdReady = true ↔ s.seq = .idle) ∧ (s.busy = true ↔ s.seq ≠ .idle) ∧
      (s.clkStable = true ↔ s.clkState = .stable) ∧
      (s.clkState = .unconfigured ↔ s.seq = .cfgWrite) ∧ (s.clkState = .settling ↔ s.seq = .cfgSettle) ∧
      (s.clkState = .faultClearing ↔ s.seq = .cfgFclr) ∧ (s.clkState = .failed ↔ s.seq = .cfgFailed) ∧
      (s.clkState = .stable ↔
        s.seq = .idle ∨ s.seq = .exec ∨ s.seq = .txHigh ∨ s.seq = .txLow ∨ s.seq = .txLatch)

/-- The system clock: `F_RESET` before configuration, positive always, exactly 20 MHz when stable (R26; the last is
the environment's assumption D13, log entry 17). -/
def Obligations.SystemClockFrequency : Prop :=
  ∀ s : State, s.par.wellFormed →
    0 < s.fSys ∧ (s.clkState = .unconfigured → s.fSys = s.par.fReset) ∧ (s.clkStable = true → s.fSys = 20000000)

/-- A command offered while the core is not ready is held: it has no effect on the operation, the step or the edge
(R73, R178). -/
def Obligations.CommandHeldWhenNotReady : Prop :=
  ∀ s : State, s.seq ≠ .idle →
    (∀ i : Instr, i.wellFormed = true → exec i s = .next s) ∧
      ∀ (c d : Option CmdWord) (osc : Bool) (rest : List Input),
        step { s with env := ⟨true, c, osc⟩ :: rest } = step { s with env := ⟨true, d, osc⟩ :: rest } ∧
          edge { s with env := ⟨true, c, osc⟩ :: rest } = edge { s with env := ⟨true, d, osc⟩ :: rest }

/-- `ERR` keeps the first fault until reset (R150, R153), whatever else happens. -/
def Obligations.FirstFaultKeptUntilReset : Prop :=
  ∀ s t : State, s.err ≠ 0#2 → s.input.rstN = true → step s = .next t ∨ edge s = .next t → t.err = s.err

/-- A fault is recorded only by what R146 lists: code 1 by the loop of `CLKCFG`, code 2 by a `SET` with `idx >= N`,
code 3 by a reserved word. -/
def Obligations.FaultsOnlyAsListed : Prop :=
  ∀ s t : State, s.err = 0#2 → t.err ≠ 0#2 → step s = .next t ∨ edge s = .next t →
    (t.err = 1#2 ∧ s.seq = .cfgFclr ∧ t.seq = .cfgFailed ∧ boundUsedUp s.par.maxRetry (s.retryCnt + 1) = true) ∨
      (s.seq = .idle ∧ ∃ w, s.input.cmd = some w ∧
        ((t.err = 2#2 ∧ opField w = 0b10#2 ∧ (s.par.n : Int) ≤ (idxField w).toInt) ∨
          (t.err = 3#2 ∧ opField w = 0b00#2)))

/-- `FB` is written only by an accepted `CLEAR` or `SET`, and by reset (R21). -/
def Obligations.BufferWrittenOnlyByClearAndSet : Prop :=
  ∀ s t : State, s.input.rstN = true → step s = .next t ∨ edge s = .next t → t.fb ≠ s.fb →
    s.seq = .idle ∧ ∃ w, s.input.cmd = some w ∧ (opField w = 0b01#2 ∨ opField w = 0b10#2)

/-- R118: while a transmission is in progress no command is accepted and the frame buffer is constant. -/
def Obligations.BufferConstantDuringTransmission : Prop :=
  ∀ s t : State, s.seq.transmitting = true → s.input.rstN = true → edge s = .next t →
    s.accepted = none ∧ t.fb = s.fb ∧ (∀ k, t.fbByte k = s.fbByte k) ∧
      (t.seq.transmitting = true ∨ t.seq = .idle)

/-- The histories only grow (R32), at both levels, through reset too. -/
def Obligations.HistoriesOnlyGrow : Prop :=
  ∀ s t : State, step s = .next t ∨ edge s = .next t → levels s.wire <+: levels t.wire ∧ s.syms <+: t.syms

/-- During every cycle of a transmission the level of the line is recorded once; no other cycle is recorded
(R121, R122). -/
def Obligations.EdgeRecordsTheLine : Prop :=
  ∀ s t : State, edge s = .next t → s.input.rstN = true →
    levels t.wire = if s.seq.transmitting then levels s.wire ++ [s.dout] else levels s.wire

/-- The whole transition table R127 of `SEQ`; that `EXEC` and one iteration of the fault-clearing loop last one cycle
is the model's choice (log entries 11 and 12). -/
def Obligations.EdgeFollowsTransitionTable : Prop :=
  ∀ s t : State, edge s = .next t → t.seq = if s.input.rstN then nextSeq s else .cfgWrite

/-- The build-time parameters are constant for the life of the machine (R5). -/
def Obligations.ParametersNeverChange : Prop :=
  ∀ s t : State, step s = .next t ∨ edge s = .next t → t.par = s.par

/-! ### The invariant -/

/-- The invariant holds at reset (its parameters are the model's in-range choice, log entry 4; its working registers
stand at 0, log entry 7). -/
def Obligations.InvariantAtReset : Prop := Inv State.reset

/-- The invariant is kept by every step of the operation level. -/
def Obligations.StepKeepsInvariant : Prop :=
  ∀ s t : State, Inv s → step s = .next t → Inv t

/-- The invariant is kept by every edge of the cycle level. -/
def Obligations.EdgeKeepsInvariant : Prop :=
  ∀ s t : State, Inv s → edge s = .next t → Inv t

/-- Under the invariant the machine never stops, at either level. -/
def Obligations.InvariantNeverStops : Prop :=
  ∀ s : State, Inv s → (∃ t, step s = .next t) ∧ ∃ t, edge s = .next t

/-! ### Refinement of the operation level by the cycle level -/

/-- R128: run edge by edge from an accepted `TRANSMIT`, the sequencer appends exactly what the operation appends and
is back at `IDLE` at the edge `23*z + 25*o + T_RESET_CYC` cycles after the acceptance edge, not before; the two states
agree in everything but the inputs consumed and the working registers, which R28 leaves unspecified at `IDLE`. That
`WIRE` is the same list of segments, and not only the same levels, rests on the edges keeping each phase one segment,
where R122 merges equal neighbours (DESIGN CHOICE, log entry 14). -/
def Obligations.EdgesRefineTransmit : Prop :=
  ∀ (s : State) (w : CmdWord), s.par.wellFormed → s.seq = .idle → s.released → s.input.cmd = some w →
    opField w = 0b11#2 →
    ∃ t u, step s = .next u ∧ runEdges (1 + s.frameCycles) s = .next t ∧ t.wire = u.wire ∧ t.syms = u.syms ∧
      t.seq = .idle ∧
      sameButInputs { t with byteIdx := u.byteIdx, bitIdx := u.bitIdx, curBit := u.curBit, cnt := u.cnt } u ∧
      ∀ k, 0 < k → k < 1 + s.frameCycles → ∃ v, runEdges k s = .next v ∧ v.seq.transmitting = true

/-- An accepted `CLEAR`, `SET` or reserved word: two edges do what the operation does (R140; the one cycle in `EXEC`
is the model's choice, log entry 12). -/
def Obligations.EdgesRefineBufferOperations : Prop :=
  ∀ (s : State) (w : CmdWord), s.seq = .idle → s.released → s.input.cmd = some w → opField w ≠ 0b11#2 →
    (opField w = 0b00#2 → step s = edge s) ∧
      (opField w ≠ 0b00#2 →
        ∃ t u, step s = .next u ∧ runEdges 2 s = .next t ∧ sameButInputs t u)

/-- A micro-operation that a step runs whole is, edge by edge, its `H(c)` high and `L(c)` low cycles, or its
`T_RESET_CYC` low cycles, with no cycle between it and what follows (R109, R124, R125, R126). `CNT = 0` after the latch
period is log entry 8; that `WIRE` is the same list of segments rests on the edges keeping each phase one segment, where
R122 merges equal neighbours (DESIGN CHOICE, log entry 14). -/
def Obligations.EdgesRefineMicroOperations : Prop :=
  ∀ (s u : State) (i : Instr), Inv s → s.released → s.current = some i → i.isMicro = true → step s = .next u →
    ∃ t, runEdges (operationCycles s i) s = .next t ∧ sameButInputs t u
end

