-- ==== Sys2Proof/Laws/State.lean ====
section
/-! SUPPORT. What each update of the state does to each field: one lemma per field and update, so that no proof
unfolds a record update. -/

namespace Sys2Proof.Machine

/-! ### `writeFb` -/

@[simp] theorem State.writeFb_par (s : State) (k : Nat) (v : Byte) : (s.writeFb k v).par = s.par := rfl
@[simp] theorem State.writeFb_fb (s : State) (k : Nat) (v : Byte) : (s.writeFb k v).fb = Memory.write s.fb k v := rfl
@[simp] theorem State.writeFb_dout (s : State) (k : Nat) (v : Byte) : (s.writeFb k v).dout = s.dout := rfl
@[simp] theorem State.writeFb_clkSrc (s : State) (k : Nat) (v : Byte) : (s.writeFb k v).clkSrc = s.clkSrc := rfl
@[simp] theorem State.writeFb_clkDiv (s : State) (k : Nat) (v : Byte) : (s.writeFb k v).clkDiv = s.clkDiv := rfl
@[simp] theorem State.writeFb_oscFault (s : State) (k : Nat) (v : Byte) : (s.writeFb k v).oscFault = s.oscFault := rfl
@[simp] theorem State.writeFb_retryCnt (s : State) (k : Nat) (v : Byte) : (s.writeFb k v).retryCnt = s.retryCnt := rfl
@[simp] theorem State.writeFb_seq (s : State) (k : Nat) (v : Byte) : (s.writeFb k v).seq = s.seq := rfl
@[simp] theorem State.writeFb_byteIdx (s : State) (k : Nat) (v : Byte) : (s.writeFb k v).byteIdx = s.byteIdx := rfl
@[simp] theorem State.writeFb_bitIdx (s : State) (k : Nat) (v : Byte) : (s.writeFb k v).bitIdx = s.bitIdx := rfl
@[simp] theorem State.writeFb_curBit (s : State) (k : Nat) (v : Byte) : (s.writeFb k v).curBit = s.curBit := rfl
@[simp] theorem State.writeFb_cnt (s : State) (k : Nat) (v : Byte) : (s.writeFb k v).cnt = s.cnt := rfl
@[simp] theorem State.writeFb_err (s : State) (k : Nat) (v : Byte) : (s.writeFb k v).err = s.err := rfl
@[simp] theorem State.writeFb_wire (s : State) (k : Nat) (v : Byte) : (s.writeFb k v).wire = s.wire := rfl
@[simp] theorem State.writeFb_syms (s : State) (k : Nat) (v : Byte) : (s.writeFb k v).syms = s.syms := rfl
@[simp] theorem State.writeFb_env (s : State) (k : Nat) (v : Byte) : (s.writeFb k v).env = s.env := rfl
@[simp] theorem State.writeFb_prog (s : State) (k : Nat) (v : Byte) : (s.writeFb k v).prog = s.prog := rfl
@[simp] theorem State.writeFb_edges (s : State) (k : Nat) (v : Byte) : (s.writeFb k v).edges = s.edges := rfl
@[simp] theorem State.writeFb_resets (s : State) (k : Nat) (v : Byte) : (s.writeFb k v).resets = s.resets := rfl

/-! ### `emit` -/

@[simp] theorem State.emit_par (s : State) (l : Level) (n : Nat) : (s.emit l n).par = s.par := rfl
@[simp] theorem State.emit_fb (s : State) (l : Level) (n : Nat) : (s.emit l n).fb = s.fb := rfl
@[simp] theorem State.emit_dout (s : State) (l : Level) (n : Nat) : (s.emit l n).dout = l := rfl
@[simp] theorem State.emit_clkSrc (s : State) (l : Level) (n : Nat) : (s.emit l n).clkSrc = s.clkSrc := rfl
@[simp] theorem State.emit_clkDiv (s : State) (l : Level) (n : Nat) : (s.emit l n).clkDiv = s.clkDiv := rfl
@[simp] theorem State.emit_oscFault (s : State) (l : Level) (n : Nat) : (s.emit l n).oscFault = s.oscFault := rfl
@[simp] theorem State.emit_retryCnt (s : State) (l : Level) (n : Nat) : (s.emit l n).retryCnt = s.retryCnt := rfl
@[simp] theorem State.emit_seq (s : State) (l : Level) (n : Nat) : (s.emit l n).seq = s.seq := rfl
@[simp] theorem State.emit_byteIdx (s : State) (l : Level) (n : Nat) : (s.emit l n).byteIdx = s.byteIdx := rfl
@[simp] theorem State.emit_bitIdx (s : State) (l : Level) (n : Nat) : (s.emit l n).bitIdx = s.bitIdx := rfl
@[simp] theorem State.emit_curBit (s : State) (l : Level) (n : Nat) : (s.emit l n).curBit = s.curBit := rfl
@[simp] theorem State.emit_cnt (s : State) (l : Level) (n : Nat) : (s.emit l n).cnt = s.cnt := rfl
@[simp] theorem State.emit_err (s : State) (l : Level) (n : Nat) : (s.emit l n).err = s.err := rfl
@[simp] theorem State.emit_wire (s : State) (l : Level) (n : Nat) : (s.emit l n).wire = s.wire ++ [⟨l, n⟩] := rfl
@[simp] theorem State.emit_syms (s : State) (l : Level) (n : Nat) : (s.emit l n).syms = s.syms := rfl
@[simp] theorem State.emit_env (s : State) (l : Level) (n : Nat) : (s.emit l n).env = s.env := rfl
@[simp] theorem State.emit_prog (s : State) (l : Level) (n : Nat) : (s.emit l n).prog = s.prog := rfl
@[simp] theorem State.emit_edges (s : State) (l : Level) (n : Nat) : (s.emit l n).edges = s.edges := rfl
@[simp] theorem State.emit_resets (s : State) (l : Level) (n : Nat) : (s.emit l n).resets = s.resets := rfl

/-! ### `sym` -/

@[simp] theorem State.sym_par (s : State) (x : Symbol) : (s.sym x).par = s.par := rfl
@[simp] theorem State.sym_fb (s : State) (x : Symbol) : (s.sym x).fb = s.fb := rfl
@[simp] theorem State.sym_dout (s : State) (x : Symbol) : (s.sym x).dout = s.dout := rfl
@[simp] theorem State.sym_clkSrc (s : State) (x : Symbol) : (s.sym x).clkSrc = s.clkSrc := rfl
@[simp] theorem State.sym_clkDiv (s : State) (x : Symbol) : (s.sym x).clkDiv = s.clkDiv := rfl
@[simp] theorem State.sym_oscFault (s : State) (x : Symbol) : (s.sym x).oscFault = s.oscFault := rfl
@[simp] theorem State.sym_retryCnt (s : State) (x : Symbol) : (s.sym x).retryCnt = s.retryCnt := rfl
@[simp] theorem State.sym_seq (s : State) (x : Symbol) : (s.sym x).seq = s.seq := rfl
@[simp] theorem State.sym_byteIdx (s : State) (x : Symbol) : (s.sym x).byteIdx = s.byteIdx := rfl
@[simp] theorem State.sym_bitIdx (s : State) (x : Symbol) : (s.sym x).bitIdx = s.bitIdx := rfl
@[simp] theorem State.sym_curBit (s : State) (x : Symbol) : (s.sym x).curBit = s.curBit := rfl
@[simp] theorem State.sym_cnt (s : State) (x : Symbol) : (s.sym x).cnt = s.cnt := rfl
@[simp] theorem State.sym_err (s : State) (x : Symbol) : (s.sym x).err = s.err := rfl
@[simp] theorem State.sym_wire (s : State) (x : Symbol) : (s.sym x).wire = s.wire := rfl
@[simp] theorem State.sym_syms (s : State) (x : Symbol) : (s.sym x).syms = s.syms ++ [x] := rfl
@[simp] theorem State.sym_env (s : State) (x : Symbol) : (s.sym x).env = s.env := rfl
@[simp] theorem State.sym_prog (s : State) (x : Symbol) : (s.sym x).prog = s.prog := rfl
@[simp] theorem State.sym_edges (s : State) (x : Symbol) : (s.sym x).edges = s.edges := rfl
@[simp] theorem State.sym_resets (s : State) (x : Symbol) : (s.sym x).resets = s.resets := rfl

/-! ### `raise` -/

@[simp] theorem State.raise_par (s : State) (f : CoreFault) : (s.raise f).par = s.par := rfl
@[simp] theorem State.raise_fb (s : State) (f : CoreFault) : (s.raise f).fb = s.fb := rfl
@[simp] theorem State.raise_dout (s : State) (f : CoreFault) : (s.raise f).dout = s.dout := rfl
@[simp] theorem State.raise_clkSrc (s : State) (f : CoreFault) : (s.raise f).clkSrc = s.clkSrc := rfl
@[simp] theorem State.raise_clkDiv (s : State) (f : CoreFault) : (s.raise f).clkDiv = s.clkDiv := rfl
@[simp] theorem State.raise_oscFault (s : State) (f : CoreFault) : (s.raise f).oscFault = s.oscFault := rfl
@[simp] theorem State.raise_retryCnt (s : State) (f : CoreFault) : (s.raise f).retryCnt = s.retryCnt := rfl
@[simp] theorem State.raise_seq (s : State) (f : CoreFault) : (s.raise f).seq = s.seq := rfl
@[simp] theorem State.raise_byteIdx (s : State) (f : CoreFault) : (s.raise f).byteIdx = s.byteIdx := rfl
@[simp] theorem State.raise_bitIdx (s : State) (f : CoreFault) : (s.raise f).bitIdx = s.bitIdx := rfl
@[simp] theorem State.raise_curBit (s : State) (f : CoreFault) : (s.raise f).curBit = s.curBit := rfl
@[simp] theorem State.raise_cnt (s : State) (f : CoreFault) : (s.raise f).cnt = s.cnt := rfl
@[simp] theorem State.raise_err (s : State) (f : CoreFault) : (s.raise f).err = if s.err = 0#2 then faultCode f else s.err := rfl
@[simp] theorem State.raise_wire (s : State) (f : CoreFault) : (s.raise f).wire = s.wire := rfl
@[simp] theorem State.raise_syms (s : State) (f : CoreFault) : (s.raise f).syms = s.syms := rfl
@[simp] theorem State.raise_env (s : State) (f : CoreFault) : (s.raise f).env = s.env := rfl
@[simp] theorem State.raise_prog (s : State) (f : CoreFault) : (s.raise f).prog = s.prog := rfl
@[simp] theorem State.raise_edges (s : State) (f : CoreFault) : (s.raise f).edges = s.edges := rfl
@[simp] theorem State.raise_resets (s : State) (f : CoreFault) : (s.raise f).resets = s.resets := rfl

/-! ### `sample` -/

@[simp] theorem State.sample_par (s : State) (u : State) : (s.sample u).par = s.par := rfl
@[simp] theorem State.sample_fb (s : State) (u : State) : (s.sample u).fb = s.fb := rfl
@[simp] theorem State.sample_dout (s : State) (u : State) : (s.sample u).dout = s.dout := rfl
@[simp] theorem State.sample_clkSrc (s : State) (u : State) : (s.sample u).clkSrc = s.clkSrc := rfl
@[simp] theorem State.sample_clkDiv (s : State) (u : State) : (s.sample u).clkDiv = s.clkDiv := rfl
@[simp] theorem State.sample_oscFault (s : State) (u : State) : (s.sample u).oscFault = (s.oscFault || u.input.oscFaultSet) := rfl
@[simp] theorem State.sample_retryCnt (s : State) (u : State) : (s.sample u).retryCnt = s.retryCnt := rfl
@[simp] theorem State.sample_seq (s : State) (u : State) : (s.sample u).seq = s.seq := rfl
@[simp] theorem State.sample_byteIdx (s : State) (u : State) : (s.sample u).byteIdx = s.byteIdx := rfl
@[simp] theorem State.sample_bitIdx (s : State) (u : State) : (s.sample u).bitIdx = s.bitIdx := rfl
@[simp] theorem State.sample_curBit (s : State) (u : State) : (s.sample u).curBit = s.curBit := rfl
@[simp] theorem State.sample_cnt (s : State) (u : State) : (s.sample u).cnt = s.cnt := rfl
@[simp] theorem State.sample_err (s : State) (u : State) : (s.sample u).err = s.err := rfl
@[simp] theorem State.sample_wire (s : State) (u : State) : (s.sample u).wire = s.wire := rfl
@[simp] theorem State.sample_syms (s : State) (u : State) : (s.sample u).syms = s.syms := rfl
@[simp] theorem State.sample_env (s : State) (u : State) : (s.sample u).env = u.env.tail := rfl
@[simp] theorem State.sample_prog (s : State) (u : State) : (s.sample u).prog = u.progAfter := rfl
@[simp] theorem State.sample_edges (s : State) (u : State) : (s.sample u).edges = u.edges + 1 := rfl
@[simp] theorem State.sample_resets (s : State) (u : State) : (s.sample u).resets = s.resets := rfl

/-! ### `takeReset` -/

@[simp] theorem State.takeReset_par (s : State) : (s.takeReset).par = s.par := rfl
@[simp] theorem State.takeReset_fb (s : State) : (s.takeReset).fb = [] := rfl
@[simp] theorem State.takeReset_dout (s : State) : (s.takeReset).dout = false := rfl
@[simp] theorem State.takeReset_clkSrc (s : State) : (s.takeReset).clkSrc = s.par.clkSrcReset := rfl
@[simp] theorem State.takeReset_clkDiv (s : State) : (s.takeReset).clkDiv = s.par.clkDivReset := rfl
@[simp] theorem State.takeReset_oscFault (s : State) : (s.takeReset).oscFault = Config.oscFaultReset (s.resets + 1) := rfl
@[simp] theorem State.takeReset_retryCnt (s : State) : (s.takeReset).retryCnt = 0 := rfl
@[simp] theorem State.takeReset_seq (s : State) : (s.takeReset).seq = .cfgWrite := rfl
@[simp] theorem State.takeReset_byteIdx (s : State) : (s.takeReset).byteIdx = 0 := rfl
@[simp] theorem State.takeReset_bitIdx (s : State) : (s.takeReset).bitIdx = 0#3 := rfl
@[simp] theorem State.takeReset_curBit (s : State) : (s.takeReset).curBit = false := rfl
@[simp] theorem State.takeReset_cnt (s : State) : (s.takeReset).cnt = 0 := rfl
@[simp] theorem State.takeReset_err (s : State) : (s.takeReset).err = 0#2 := rfl
@[simp] theorem State.takeReset_wire (s : State) : (s.takeReset).wire = s.wire := rfl
@[simp] theorem State.takeReset_syms (s : State) : (s.takeReset).syms = s.syms := rfl
@[simp] theorem State.takeReset_env (s : State) : (s.takeReset).env = s.env.tail := rfl
@[simp] theorem State.takeReset_prog (s : State) : (s.takeReset).prog = s.prog := rfl
@[simp] theorem State.takeReset_edges (s : State) : (s.takeReset).edges = s.edges + 1 := rfl
@[simp] theorem State.takeReset_resets (s : State) : (s.takeReset).resets = s.resets + 1 := rfl

/-! ### `clkWrite` -/

@[simp] theorem State.clkWrite_par (s : State) : (s.clkWrite).par = s.par := rfl
@[simp] theorem State.clkWrite_fb (s : State) : (s.clkWrite).fb = s.fb := rfl
@[simp] theorem State.clkWrite_dout (s : State) : (s.clkWrite).dout = s.dout := rfl
@[simp] theorem State.clkWrite_clkSrc (s : State) : (s.clkWrite).clkSrc = s.par.clkSrcTarget := rfl
@[simp] theorem State.clkWrite_clkDiv (s : State) : (s.clkWrite).clkDiv = s.par.clkDivTarget := rfl
@[simp] theorem State.clkWrite_oscFault (s : State) : (s.clkWrite).oscFault = false := rfl
@[simp] theorem State.clkWrite_retryCnt (s : State) : (s.clkWrite).retryCnt = s.retryCnt := rfl
@[simp] theorem State.clkWrite_seq (s : State) : (s.clkWrite).seq = .cfgSettle := rfl
@[simp] theorem State.clkWrite_byteIdx (s : State) : (s.clkWrite).byteIdx = s.byteIdx := rfl
@[simp] theorem State.clkWrite_bitIdx (s : State) : (s.clkWrite).bitIdx = s.bitIdx := rfl
@[simp] theorem State.clkWrite_curBit (s : State) : (s.clkWrite).curBit = s.curBit := rfl
@[simp] theorem State.clkWrite_cnt (s : State) : (s.clkWrite).cnt = s.par.tSettleCyc := rfl
@[simp] theorem State.clkWrite_err (s : State) : (s.clkWrite).err = s.err := rfl
@[simp] theorem State.clkWrite_wire (s : State) : (s.clkWrite).wire = s.wire := rfl
@[simp] theorem State.clkWrite_syms (s : State) : (s.clkWrite).syms = s.syms := rfl
@[simp] theorem State.clkWrite_env (s : State) : (s.clkWrite).env = s.env := rfl
@[simp] theorem State.clkWrite_prog (s : State) : (s.clkWrite).prog = s.prog := rfl
@[simp] theorem State.clkWrite_edges (s : State) : (s.clkWrite).edges = s.edges := rfl
@[simp] theorem State.clkWrite_resets (s : State) : (s.clkWrite).resets = s.resets := rfl

/-! ### `pulseBit` -/

@[simp] theorem State.pulseBit_par (s : State) (c : Bool) : (s.pulseBit c).par = s.par := rfl
@[simp] theorem State.pulseBit_fb (s : State) (c : Bool) : (s.pulseBit c).fb = s.fb := rfl
@[simp] theorem State.pulseBit_dout (s : State) (c : Bool) : (s.pulseBit c).dout = false := rfl
@[simp] theorem State.pulseBit_clkSrc (s : State) (c : Bool) : (s.pulseBit c).clkSrc = s.clkSrc := rfl
@[simp] theorem State.pulseBit_clkDiv (s : State) (c : Bool) : (s.pulseBit c).clkDiv = s.clkDiv := rfl
@[simp] theorem State.pulseBit_oscFault (s : State) (c : Bool) : (s.pulseBit c).oscFault = s.oscFault := rfl
@[simp] theorem State.pulseBit_retryCnt (s : State) (c : Bool) : (s.pulseBit c).retryCnt = s.retryCnt := rfl
@[simp] theorem State.pulseBit_seq (s : State) (c : Bool) : (s.pulseBit c).seq = s.seq := rfl
@[simp] theorem State.pulseBit_byteIdx (s : State) (c : Bool) : (s.pulseBit c).byteIdx = s.byteIdx := rfl
@[simp] theorem State.pulseBit_bitIdx (s : State) (c : Bool) : (s.pulseBit c).bitIdx = s.bitIdx := rfl
@[simp] theorem State.pulseBit_curBit (s : State) (c : Bool) : (s.pulseBit c).curBit = s.curBit := rfl
@[simp] theorem State.pulseBit_cnt (s : State) (c : Bool) : (s.pulseBit c).cnt = s.cnt := rfl
@[simp] theorem State.pulseBit_err (s : State) (c : Bool) : (s.pulseBit c).err = s.err := rfl
@[simp] theorem State.pulseBit_wire (s : State) (c : Bool) : (s.pulseBit c).wire = s.wire ++ [⟨true, highCycles c⟩] ++ [⟨false, lowCycles c⟩] := rfl
@[simp] theorem State.pulseBit_syms (s : State) (c : Bool) : (s.pulseBit c).syms = s.syms ++ [bitSymbol c] := rfl
@[simp] theorem State.pulseBit_env (s : State) (c : Bool) : (s.pulseBit c).env = s.env := rfl
@[simp] theorem State.pulseBit_prog (s : State) (c : Bool) : (s.pulseBit c).prog = s.prog := rfl
@[simp] theorem State.pulseBit_edges (s : State) (c : Bool) : (s.pulseBit c).edges = s.edges := rfl
@[simp] theorem State.pulseBit_resets (s : State) (c : Bool) : (s.pulseBit c).resets = s.resets := rfl

/-! ### `pulseLatch` -/

@[simp] theorem State.pulseLatch_par (s : State) : (s.pulseLatch).par = s.par := rfl
@[simp] theorem State.pulseLatch_fb (s : State) : (s.pulseLatch).fb = s.fb := rfl
@[simp] theorem State.pulseLatch_dout (s : State) : (s.pulseLatch).dout = false := rfl
@[simp] theorem State.pulseLatch_clkSrc (s : State) : (s.pulseLatch).clkSrc = s.clkSrc := rfl
@[simp] theorem State.pulseLatch_clkDiv (s : State) : (s.pulseLatch).clkDiv = s.clkDiv := rfl
@[simp] theorem State.pulseLatch_oscFault (s : State) : (s.pulseLatch).oscFault = s.oscFault := rfl
@[simp] theorem State.pulseLatch_retryCnt (s : State) : (s.pulseLatch).retryCnt = s.retryCnt := rfl
@[simp] theorem State.pulseLatch_seq (s : State) : (s.pulseLatch).seq = s.seq := rfl
@[simp] theorem State.pulseLatch_byteIdx (s : State) : (s.pulseLatch).byteIdx = s.byteIdx := rfl
@[simp] theorem State.pulseLatch_bitIdx (s : State) : (s.pulseLatch).bitIdx = s.bitIdx := rfl
@[simp] theorem State.pulseLatch_curBit (s : State) : (s.pulseLatch).curBit = s.curBit := rfl
@[simp] theorem State.pulseLatch_cnt (s : State) : (s.pulseLatch).cnt = s.cnt := rfl
@[simp] theorem State.pulseLatch_err (s : State) : (s.pulseLatch).err = s.err := rfl
@[simp] theorem State.pulseLatch_wire (s : State) : (s.pulseLatch).wire = s.wire ++ [⟨false, s.par.tResetCyc⟩] := rfl
@[simp] theorem State.pulseLatch_syms (s : State) : (s.pulseLatch).syms = s.syms ++ [.rst] := rfl
@[simp] theorem State.pulseLatch_env (s : State) : (s.pulseLatch).env = s.env := rfl
@[simp] theorem State.pulseLatch_prog (s : State) : (s.pulseLatch).prog = s.prog := rfl
@[simp] theorem State.pulseLatch_edges (s : State) : (s.pulseLatch).edges = s.edges := rfl
@[simp] theorem State.pulseLatch_resets (s : State) : (s.pulseLatch).resets = s.resets := rfl

/-! ### `record` -/

@[simp] theorem State.record_par (s : State) (n : Nat) : (s.record n).par = s.par := rfl
@[simp] theorem State.record_fb (s : State) (n : Nat) : (s.record n).fb = s.fb := rfl
@[simp] theorem State.record_dout (s : State) (n : Nat) : (s.record n).dout = s.dout := rfl
@[simp] theorem State.record_clkSrc (s : State) (n : Nat) : (s.record n).clkSrc = s.clkSrc := rfl
@[simp] theorem State.record_clkDiv (s : State) (n : Nat) : (s.record n).clkDiv = s.clkDiv := rfl
@[simp] theorem State.record_oscFault (s : State) (n : Nat) : (s.record n).oscFault = s.oscFault := rfl
@[simp] theorem State.record_retryCnt (s : State) (n : Nat) : (s.record n).retryCnt = s.retryCnt := rfl
@[simp] theorem State.record_seq (s : State) (n : Nat) : (s.record n).seq = s.seq := rfl
@[simp] theorem State.record_byteIdx (s : State) (n : Nat) : (s.record n).byteIdx = s.byteIdx := rfl
@[simp] theorem State.record_bitIdx (s : State) (n : Nat) : (s.record n).bitIdx = s.bitIdx := rfl
@[simp] theorem State.record_curBit (s : State) (n : Nat) : (s.record n).curBit = s.curBit := rfl
@[simp] theorem State.record_cnt (s : State) (n : Nat) : (s.record n).cnt = s.cnt := rfl
@[simp] theorem State.record_err (s : State) (n : Nat) : (s.record n).err = s.err := rfl
@[simp] theorem State.record_wire (s : State) (n : Nat) : (s.record n).wire = if s.cnt + 1 = n then s.wire ++ [⟨s.dout, 1⟩] else extendWire s.wire s.dout := rfl
@[simp] theorem State.record_syms (s : State) (n : Nat) : (s.record n).syms = s.syms := rfl
@[simp] theorem State.record_env (s : State) (n : Nat) : (s.record n).env = s.env := rfl
@[simp] theorem State.record_prog (s : State) (n : Nat) : (s.record n).prog = s.prog := rfl
@[simp] theorem State.record_edges (s : State) (n : Nat) : (s.record n).edges = s.edges := rfl
@[simp] theorem State.record_resets (s : State) (n : Nat) : (s.record n).resets = s.resets := rfl

/-! ### `parkRegisters` -/

@[simp] theorem State.parkRegisters_par (s : State) : (s.parkRegisters).par = s.par := rfl
@[simp] theorem State.parkRegisters_fb (s : State) : (s.parkRegisters).fb = s.fb := rfl
@[simp] theorem State.parkRegisters_dout (s : State) : (s.parkRegisters).dout = s.dout := rfl
@[simp] theorem State.parkRegisters_clkSrc (s : State) : (s.parkRegisters).clkSrc = s.clkSrc := rfl
@[simp] theorem State.parkRegisters_clkDiv (s : State) : (s.parkRegisters).clkDiv = s.clkDiv := rfl
@[simp] theorem State.parkRegisters_oscFault (s : State) : (s.parkRegisters).oscFault = s.oscFault := rfl
@[simp] theorem State.parkRegisters_retryCnt (s : State) : (s.parkRegisters).retryCnt = s.retryCnt := rfl
@[simp] theorem State.parkRegisters_seq (s : State) : (s.parkRegisters).seq = s.seq := rfl
@[simp] theorem State.parkRegisters_byteIdx (s : State) : (s.parkRegisters).byteIdx = s.par.fbLen - 1 := rfl
@[simp] theorem State.parkRegisters_bitIdx (s : State) : (s.parkRegisters).bitIdx = 0#3 := rfl
@[simp] theorem State.parkRegisters_curBit (s : State) : (s.parkRegisters).curBit = (s.fbByte (s.par.fbLen - 1)).getLsbD 0 := rfl
@[simp] theorem State.parkRegisters_cnt (s : State) : (s.parkRegisters).cnt = 0 := rfl
@[simp] theorem State.parkRegisters_err (s : State) : (s.parkRegisters).err = s.err := rfl
@[simp] theorem State.parkRegisters_wire (s : State) : (s.parkRegisters).wire = s.wire := rfl
@[simp] theorem State.parkRegisters_syms (s : State) : (s.parkRegisters).syms = s.syms := rfl
@[simp] theorem State.parkRegisters_env (s : State) : (s.parkRegisters).env = s.env := rfl
@[simp] theorem State.parkRegisters_prog (s : State) : (s.parkRegisters).prog = s.prog := rfl
@[simp] theorem State.parkRegisters_edges (s : State) : (s.parkRegisters).edges = s.edges := rfl
@[simp] theorem State.parkRegisters_resets (s : State) : (s.parkRegisters).resets = s.resets := rfl

end Sys2Proof.Machine
end

