-- ==== Sys2Proof/Laws/Memory.lean ====
section
/-! SUPPORT. The laws of the frame buffer: read after write, the canonical form, and the range of offsets. -/

namespace Sys2Proof.Machine

theorem Memory.read?_write_same (m : Memory) (k : Nat) (v : Byte) :
    Memory.read? (Memory.write m k v) k = some v := by
  induction m with
  | nil => simp [Memory.write, Memory.read?]
  | cons c m ih =>
    obtain ⟨a, u⟩ := c
    simp only [Memory.write]
    split_ifs with h1 h2
    · simp [Memory.read?]
    · simp [Memory.read?]
    · simp [Memory.read?, Ne.symm h2, ih]

theorem Memory.read?_write_other (m : Memory) {j k : Nat} (v : Byte) (h : j ≠ k) :
    Memory.read? (Memory.write m k v) j = Memory.read? m j := by
  induction m with
  | nil => simp [Memory.write, Memory.read?, Ne.symm h]
  | cons c m ih =>
    obtain ⟨a, u⟩ := c
    simp only [Memory.write]
    split_ifs with h1 h2
    · simp [Memory.read?, Ne.symm h]
    · subst h2
      simp [Memory.read?, Ne.symm h]
    · simp [Memory.read?, ih]

/-- The listed offsets after a write: the old ones and the written one. -/
theorem Memory.mem_keys_write (m : Memory) (k : Nat) (v : Byte) (j : Nat) :
    j ∈ (Memory.write m k v).map Prod.fst ↔ j = k ∨ j ∈ m.map Prod.fst := by
  induction m with
  | nil => simp [Memory.write]
  | cons c m ih =>
    obtain ⟨a, u⟩ := c
    simp only [Memory.write]
    split_ifs with h1 h2
    · simp only [List.map_cons, List.mem_cons]
    · subst h2
      simp only [List.map_cons, List.mem_cons]
      tauto
    · simp only [List.map_cons, List.mem_cons, ih]
      tauto

/-- A write keeps the canonical form. -/
theorem Memory.wf_write {m : Memory} (h : Memory.wf m) (k : Nat) (v : Byte) : Memory.wf (Memory.write m k v) := by
  induction m with
  | nil => simp [Memory.wf, Memory.write]
  | cons c m ih =>
    obtain ⟨a, u⟩ := c
    have hm : Memory.wf m := List.Pairwise.of_cons h
    have ha : ∀ j ∈ m.map Prod.fst, a < j := fun _ hj => List.rel_of_pairwise_cons h hj
    simp only [Memory.write]
    split_ifs with h1 h2
    · refine List.pairwise_cons.2 ⟨?_, h⟩
      intro j hj
      rcases List.mem_cons.1 hj with rfl | hj
      · exact h1
      · exact lt_trans h1 (ha j hj)
    · subst h2
      exact List.pairwise_cons.2 ⟨ha, hm⟩
    · refine List.pairwise_cons.2 ⟨?_, ih hm⟩
      intro j hj
      rcases (Memory.mem_keys_write m k v j).1 hj with rfl | hj
      · show a < j
        omega
      · exact ha j hj

/-- A write at an offset below `n` keeps every listed offset below `n`. -/
theorem Memory.range_write {m : Memory} {n : Nat} (h : ∀ c ∈ m, c.1 < n) {k : Nat} (hk : k < n) (v : Byte) :
    ∀ c ∈ Memory.write m k v, c.1 < n := by
  intro c hc
  rcases (Memory.mem_keys_write m k v c.1).1 (List.mem_map_of_mem hc) with h1 | h1
  · omega
  · obtain ⟨d, hd, he⟩ := List.mem_map.1 h1
    exact he ▸ h d hd

/-- Memory right after a reset is in canonical form. -/
theorem Memory.wf_resetAt (p : Params) (r : Nat) : Memory.wf (State.resetAt p r).fb := List.Pairwise.nil

theorem State.fbByte_writeFb_same (s : State) (k : Nat) (v : Byte) : (s.writeFb k v).fbByte k = v := by
  simp [State.fbByte, Memory.read?_write_same]

theorem State.fbByte_writeFb_other (s : State) {j k : Nat} (v : Byte) (h : j ≠ k) :
    (s.writeFb k v).fbByte j = s.fbByte j := by
  simp [State.fbByte, Memory.read?_write_other _ _ h]

theorem State.fbByte_writeFb (s : State) (j k : Nat) (v : Byte) :
    (s.writeFb k v).fbByte j = if j = k then v else s.fbByte j := by
  split_ifs with h
  · rw [h, State.fbByte_writeFb_same]
  · exact State.fbByte_writeFb_other s v h

/-- `FB[k]` depends on the written bytes and the draw of the last reset only. -/
theorem State.fbByte_congr {s t : State} (hf : t.fb = s.fb) (hr : t.resets = s.resets) (k : Nat) :
    t.fbByte k = s.fbByte k := by
  simp [State.fbByte, hf, hr]

end Sys2Proof.Machine
end

