-- ==== Sys2Proof/Laws/Ops.lean ====
section
/-! SUPPORT. For each shared operation, once, everything it can do; callers cite these and do not unfold it. -/

namespace Sys2Proof.Machine

/-! ### Sequencing -/

@[simp] theorem andThen_next (s : State) (f : State → Host.Outcome State Fault Refusal) :
    andThen (.next s) f = f s := rfl

/-- If a sequence answers a next state, both parts did. -/
theorem andThen_eq_next {o : Host.Outcome State Fault Refusal} {f : State → Host.Outcome State Fault Refusal}
    {t : State} (h : andThen o f = .next t) : ∃ u, o = .next u ∧ f u = .next t := by
  cases o with
  | next u => exact ⟨u, rfl, h⟩
  | fault r => cases h
  | refused r => cases h

/-- A step is a reset, or the step's body and then the sampling of the inputs. -/
theorem step_eq_next {s t : State} (h : step s = .next t) :
    (s.input.rstN = false ∧ t = s.takeReset) ∨
      (s.input.rstN = true ∧ ∃ u, stepBody s = .next u ∧ t = u.sample s) := by
  unfold step at h
  split_ifs at h with hr
  · obtain ⟨u, hu, ht⟩ := andThen_eq_next h
    exact .inr ⟨hr, u, hu, (Host.Outcome.next.inj ht).symm⟩
  · exact .inl ⟨by simpa using hr, (Host.Outcome.next.inj h).symm⟩

/-- An edge is a reset, or the edge's body and then the sampling of the inputs. -/
theorem edge_eq_next {s t : State} (h : edge s = .next t) :
    (s.input.rstN = false ∧ t = s.takeReset) ∨
      (s.input.rstN = true ∧ ∃ u, edgeBody s = .next u ∧ t = u.sample s) := by
  unfold edge at h
  split_ifs at h with hr
  · obtain ⟨u, hu, ht⟩ := andThen_eq_next h
    exact .inr ⟨hr, u, hu, (Host.Outcome.next.inj ht).symm⟩
  · exact .inl ⟨by simpa using hr, (Host.Outcome.next.inj h).symm⟩

/-! ### Folds over the state -/

/-- What every round of a loop keeps, the loop keeps. -/
theorem foldl_keeps {α β : Type} (p : State → β) (f : State → α → State) (h : ∀ t x, p (f t x) = p t) (xs : List α)
    (s : State) : p (xs.foldl f s) = p s := by
  induction xs generalizing s with
  | nil => rfl
  | cons x xs ih => rw [List.foldl_cons, ih, h]

/-! ### The frame buffer operations -/

/-- `CLEAR` changes `FB` only. -/
theorem State.clearFb_eq (s : State) :
    s.clearFb = { s with fb := (List.range s.par.fbLen).foldl (fun m k => Memory.write m k 0#8) s.fb } := by
  unfold State.clearFb
  generalize List.range s.par.fbLen = ks
  induction ks generalizing s with
  | nil => rfl
  | cons k ks ih => rw [List.foldl_cons, ih]; rfl

/-- Storing a colour changes `FB` only. -/
theorem State.storeColor_eq (s : State) (led : Nat) (r g b : Byte) :
    s.storeColor led r g b =
      { s with
        fb :=
          Memory.write (Memory.write (Memory.write s.fb (3 * led) g) (3 * led + 1) r) (3 * led + 2) b } := rfl

/-- An index is in exactly one of the ranges of R54. -/
theorem indexRange_cases (n : Nat) (idx : IndexField) :
    (signedIndex idx < 0 ∧ indexRange n idx = .negative) ∨
      (0 ≤ signedIndex idx ∧ signedIndex idx = idx.toNat ∧ idx.toNat < n ∧ indexRange n idx = .valid idx.toNat) ∨
      (0 ≤ signedIndex idx ∧ signedIndex idx = idx.toNat ∧ n ≤ idx.toNat ∧ indexRange n idx = .tooLarge) := by
  have hs : 0 ≤ signedIndex idx → signedIndex idx = idx.toNat := by
    unfold signedIndex
    rw [BitVec.toInt_eq_toNat_cond]
    split_ifs <;> omega
  unfold indexRange
  split_ifs with h1 h2
  · exact .inl ⟨h1, rfl⟩
  · exact .inr (.inl ⟨by omega, hs (by omega), h2, rfl⟩)
  · exact .inr (.inr ⟨by omega, hs (by omega), by omega, rfl⟩)

/-! ### The pulses -/

/-- Bit symbols in a row: their segments, their symbols, and the line low after them. -/
theorem foldl_pulseBit_eq (cs : List Bool) (s : State) :
    cs.foldl State.pulseBit s =
      { s with
        dout := if cs = [] then s.dout else false
        wire := s.wire ++ cs.flatMap symbolSegments
        syms := s.syms ++ cs.map bitSymbol } := by
  induction cs generalizing s with
  | nil => simp
  | cons c cs ih =>
    rw [List.foldl_cons, ih]
    simp [State.pulseBit, State.emit, State.sym, symbolSegments]

/-- A byte is its eight bit symbols, most significant bit first. -/
theorem State.sendByte_eq (s : State) (v : Byte) :
    s.sendByte v = (wireBitOrder.map v.getLsbD).foldl State.pulseBit s := by
  simp [State.sendByte, List.foldl_map]

/-! ### The widths of the working registers -/

/-- What R28's formula covers fits in its width: the three values it takes the maximum of. -/
theorem cntFormula_covers (p : Params) :
    p.tResetCyc ≤ 2 ^ p.cntFormula ∧ p.tSettleCyc ≤ 2 ^ p.cntFormula ∧ 16 ≤ 2 ^ p.cntFormula := by
  have h : max p.tResetCyc (max p.tSettleCyc 16) ≤ 2 ^ p.cntFormula := Nat.le_pow_clog (by decide) _
  exact ⟨by omega, by omega, by omega⟩

/-- `CNT` is at least as wide as R28's formula says. -/
theorem two_pow_cntFormula_le (p : Params) : 2 ^ p.cntFormula ≤ 2 ^ p.cntWidth := by
  refine Nat.pow_le_pow_right (by decide) ?_
  unfold Params.cntWidth
  split_ifs <;> omega

/-- The settle count that R91 loads fits in `CNT`. -/
theorem tSettleCyc_fits (p : Params) : p.tSettleCyc < 2 ^ p.cntWidth := by
  unfold Params.cntWidth
  split_ifs with h
  · exact h
  · exact lt_of_le_of_lt (cntFormula_covers p).2.1 (Nat.pow_lt_pow_succ (by decide))

/-- An offset of the frame buffer fits in `BYTE_IDX`. -/
theorem byteIdx_fits {p : Params} {k : Nat} (h : k < p.fbLen) : k < 2 ^ p.byteIdxWidth :=
  lt_of_lt_of_le (lt_of_lt_of_le h (Nat.le_pow_clog (by decide) _))
    (Nat.pow_le_pow_right (by decide) (le_max_right 1 _))

/-! ### Clock configuration -/

/-- One iteration of the fault-clearing loop ends in one of three ways (R94, R95). -/
theorem State.clkIterate_cases (s : State) (draw : Bool) :
    (draw = false ∧ s.clkIterate draw = { s with oscFault := false, seq := .idle }) ∨
      (draw = true ∧ boundUsedUp s.par.maxRetry (s.retryCnt + 1) = false ∧
        s.clkIterate draw = { s with oscFault := true, retryCnt := s.retryCnt + 1 }) ∨
      (draw = true ∧ boundUsedUp s.par.maxRetry (s.retryCnt + 1) = true ∧
        s.clkIterate draw =
          { s with
            oscFault := true
            retryCnt := s.retryCnt + 1
            err := if s.err = 0#2 then 1#2 else s.err
            seq := .cfgFailed }) := by
  cases draw with
  | false => exact .inl ⟨rfl, rfl⟩
  | true =>
    cases h : boundUsedUp s.par.maxRetry (s.retryCnt + 1) with
    | false => exact .inr (.inl ⟨rfl, rfl, by simp [State.clkIterate, h]⟩)
    | true => exact .inr (.inr ⟨rfl, rfl, by simp [State.clkIterate, h, State.raise, faultCode]⟩)

/-! ### SET -/

/-- `SET` does one of three things, by the range of its index (R138). -/
theorem State.setLed_cases (s : State) (idx : IndexField) (r g b : Byte) :
    (signedIndex idx < 0 ∧ s.setLed idx r g b = s) ∨
      (0 ≤ signedIndex idx ∧ idx.toNat < s.par.n ∧ s.setLed idx r g b = s.storeColor idx.toNat r g b) ∨
      (0 ≤ signedIndex idx ∧ s.par.n ≤ idx.toNat ∧ s.setLed idx r g b = s.raise (.indexOutOfRange idx)) := by
  rcases indexRange_cases s.par.n idx with ⟨h, hr⟩ | ⟨h, -, hn, hr⟩ | ⟨h, -, hn, hr⟩
  · exact .inl ⟨h, by rw [State.setLed, hr]⟩
  · exact .inr (.inl ⟨h, hn, by rw [State.setLed, hr]⟩)
  · exact .inr (.inr ⟨h, hn, by rw [State.setLed, hr]⟩)

/-! ### All operations -/

/-- What no operation touches: the parameters, the host's side and the counters. -/
abbrev State.outside (s : State) : Params × List Input × List CmdWord × Nat × Nat :=
  (s.par, s.env, s.prog, s.edges, s.resets)

/-- Sending the bytes touches none of these. -/
theorem State.sendBytes_outside (s : State) : s.sendBytes.outside = s.outside :=
  foldl_keeps State.outside (fun t k => t.sendByte (t.fbByte k))
    (fun t k => by
      rw [State.sendByte_eq]
      exact foldl_keeps State.outside State.pulseBit (fun _ _ => rfl) _ t)
    _ s

/-- No operation touches these. -/
theorem exec_keeps_outside {i : Instr} {s t : State} (h : exec i s = .next t) : t.outside = s.outside := by
  cases i with
  | clkcfg =>
    obtain rfl := Host.Outcome.next.inj h
    cases s.seq with
    | cfgSettle => simp only [State.clkSettle]; split_ifs <;> rfl
    | cfgFclr =>
      rcases s.clkIterate_cases s.input.oscFaultSet with ⟨-, e⟩ | ⟨-, -, e⟩ | ⟨-, -, e⟩ <;> simp only [e]
    | _ => rfl
  | reserved rest =>
    obtain rfl := Host.Outcome.next.inj h
    unfold State.whenReady
    split_ifs <;> rfl
  | clear ignored =>
    obtain rfl := Host.Outcome.next.inj h
    unfold State.whenReady
    split_ifs
    · rw [State.clearFb_eq]
    · rfl
  | set idx r g b =>
    obtain rfl := Host.Outcome.next.inj h
    unfold State.whenReady
    split_ifs
    · rcases s.setLed_cases idx r g b with ⟨-, e⟩ | ⟨-, -, e⟩ | ⟨-, -, e⟩ <;> rw [e] <;> rfl
    · rfl
  | transmit ignored =>
    obtain rfl := Host.Outcome.next.inj h
    unfold State.whenReady
    split_ifs
    · have hs := s.sendBytes_outside
      unfold State.transmit
      generalize s.sendBytes = u at hs
      exact hs
    · rfl
  | bit0 => obtain rfl := Host.Outcome.next.inj h; rfl
  | bit1 => obtain rfl := Host.Outcome.next.inj h; rfl
  | reset => obtain rfl := Host.Outcome.next.inj h; rfl

/-! ### The sequencer -/

/-- A symbol begins only at an offset that exists, and then in the way of R123 and R125. -/
theorem State.beginSymbol_eq_next {s t : State} {k : Nat} {j : BitVec 3} (h : s.beginSymbol k j = .next t) :
    k < s.par.fbLen ∧
      t =
        { s with
          byteIdx := k
          bitIdx := j
          curBit := (s.fbByte k).getLsbD j.toNat
          cnt := highCycles ((s.fbByte k).getLsbD j.toNat) - 1
          dout := true
          seq := .txHigh } := by
  unfold State.beginSymbol State.readFb at h
  split_ifs at h with hk
  exact ⟨hk, (Host.Outcome.next.inj h).symm⟩

/-- At an offset that exists the symbol begins. -/
theorem State.beginSymbol_of_lt (s : State) {k : Nat} (j : BitVec 3) (h : k < s.par.fbLen) :
    s.beginSymbol k j =
      .next
        { s with
          byteIdx := k
          bitIdx := j
          curBit := (s.fbByte k).getLsbD j.toNat
          cnt := highCycles ((s.fbByte k).getLsbD j.toNat) - 1
          dout := true
          seq := .txHigh } := by
  simp [State.beginSymbol, State.readFb, h]

/-- After a bit symbol comes the next bit, the next byte, or the latch period (R125). -/
theorem State.nextSymbol_cases (s : State) :
    (0#3 < s.bitIdx ∧ s.nextSymbol = s.beginSymbol s.byteIdx (s.bitIdx - 1#3)) ∨
      (¬0#3 < s.bitIdx ∧ s.byteIdx < s.par.fbLen - 1 ∧ s.nextSymbol = s.beginSymbol (s.byteIdx + 1) 7#3) ∨
      (¬0#3 < s.bitIdx ∧ ¬s.byteIdx < s.par.fbLen - 1 ∧
        s.nextSymbol = .next { s with cnt := s.par.tResetCyc - 1, seq := .txLatch }) := by
  unfold State.nextSymbol
  split_ifs with h1 h2
  · exact .inl ⟨h1, rfl⟩
  · exact .inr (.inl ⟨h1, h2, rfl⟩)
  · exact .inr (.inr ⟨h1, h2, rfl⟩)

/-! ### The input ports -/

/-- The input listed first. -/
@[simp] theorem State.listedInput_cons (s : State) (i : Input) (rest : List Input) :
    ({ s with env := i :: rest } : State).listedInput = i := rfl

/-- What stands on the ports with a first input listed: on the command port the program's word, if that offers none. -/
@[simp] theorem State.input_cons (s : State) (i : Input) (rest : List Input) :
    ({ s with env := i :: rest } : State).input = { i with cmd := i.cmd.or s.prog.head? } := rfl

/-- The program does not reach the reset input. -/
theorem State.input_rstN (s : State) : s.input.rstN = s.listedInput.rstN := rfl

/-- The program does not reach the oscillator's input. -/
theorem State.input_oscFaultSet (s : State) : s.input.oscFaultSet = s.listedInput.oscFaultSet := rfl

/-- A word listed for this step stands on the port, whatever the program is. -/
theorem State.input_cmd_of_listed {s : State} {w : CmdWord} (h : s.listedInput.cmd = some w) :
    s.input.cmd = some w := by
  simp [State.input, h]

/-- With nothing listed for the port, the program's first word stands on it (R84). -/
theorem State.input_cmd_of_unlisted {s : State} (h : s.listedInput.cmd = none) :
    s.input.cmd = s.prog.head? := by
  simp [State.input, h]

/-- While `cmd_ready = 0` the program is held (R178). -/
theorem State.progAfter_of_not_idle {s : State} (h : s.seq ≠ .idle) : s.progAfter = s.prog := by
  simp [State.progAfter, h]

/-- A word listed for this step is not the program's, which is held. -/
theorem State.progAfter_of_listed {s : State} {w : CmdWord} (h : s.listedInput.cmd = some w) :
    s.progAfter = s.prog := by
  simp [State.progAfter, h]

/-- The program's first word is accepted at `IDLE`, unless another is listed. -/
theorem State.progAfter_of_idle {s : State} (h : s.seq = .idle) (hc : s.listedInput.cmd = none) :
    s.progAfter = s.prog.tail := by
  simp [State.progAfter, h, hc]

/-- With no listed input asserting reset, none does. -/
theorem State.rstN_of_released {s : State} (h : s.released) : s.input.rstN = true := by
  rw [State.input_rstN]
  unfold State.listedInput
  split
  · rfl
  · next i rest he => exact h i (he ▸ List.mem_cons_self)

/-- Sampling keeps reset released. -/
theorem State.released_sample {s : State} (h : s.released) (t : State) : (t.sample s).released :=
  fun j hj => h j (List.mem_of_mem_tail hj)

/-- The listed input of a step is the first of those to come. -/
theorem State.inputAt_zero (s : State) : s.inputAt 0 = s.listedInput := by
  unfold State.inputAt State.listedInput State.unlistedInput
  cases s.env <;> rfl

/-- After sampling, the inputs to come move up by one. -/
theorem State.inputAt_sample (s t : State) (k : Nat) : (t.sample s).inputAt k = s.inputAt (k + 1) := by
  unfold State.inputAt
  rw [State.sample_env, State.sample_edges, List.getElem?_tail, Nat.add_right_comm, Nat.add_assoc]

/-! ### Timelines -/

theorem levels_append (w₁ w₂ : List Segment) : levels (w₁ ++ w₂) = levels w₁ ++ levels w₂ := by
  induction w₁ with
  | nil => rfl
  | cons seg w ih => simp [levels, ih]

theorem wireCycles_append (w₁ w₂ : List Segment) : wireCycles (w₁ ++ w₂) = wireCycles w₁ + wireCycles w₂ := by
  induction w₁ with
  | nil => simp [wireCycles]
  | cons seg w ih => simp [wireCycles, ih, Nat.add_assoc]

theorem length_levels (w : List Segment) : (levels w).length = wireCycles w := by
  induction w with
  | nil => rfl
  | cons seg w ih => simp [levels, wireCycles, ih]

/-- An edge of a transmission adds one cycle at the level of the line, whether it begins a segment or extends one. -/
theorem levels_extendWire (w : List Segment) (l : Level) : levels (extendWire w l) = levels w ++ [l] := by
  induction w with
  | nil => simp [extendWire, levels]
  | cons seg w ih =>
    cases w with
    | nil =>
      simp only [extendWire]
      split_ifs with h
      · subst h
        simp [levels, List.replicate_succ']
      · simp [levels]
    | cons seg' rest =>
      simp only [extendWire, levels, ih, List.append_assoc]

/-- A cycle of a transmission adds the level of the line to the timeline, however it is kept (R9, R122). -/
theorem State.levels_record (s : State) (n : Nat) : levels (s.record n).wire = levels s.wire ++ [s.dout] := by
  rw [State.record_wire]
  split_ifs
  · rw [levels_append]
    simp [levels]
  · exact levels_extendWire _ _

/-! ### Captured timelines and host programs -/

/-- A pulse is read as a bit exactly when its high phase lies in the window of that bit and not in the other's. -/
theorem receivedBit_eq_some {tol h : Nat} {c : Bool} :
    receivedBit tol h = some c ↔
      within h (cyclesToNs (highCycles c)) tol = true ∧ within h (cyclesToNs (highCycles !c)) tol = false := by
  cases c
  · show receivedBit tol h = some false ↔ within h 250 tol = true ∧ within h 800 tol = false
    unfold receivedBit
    cases within h 250 tol <;> cases within h 800 tol <;> simp
  · show receivedBit tol h = some true ↔ within h 800 tol = true ∧ within h 250 tol = false
    unfold receivedBit
    cases within h 250 tol <;> cases within h 800 tol <;> simp

/-- Low cycles before a timeline come before its first rising edge. -/
theorem timelineOf_low (n : Nat) (ls : List Level) :
    timelineOf (List.replicate n false ++ ls) = ⟨(timelineOf ls).before + n, (timelineOf ls).pulses⟩ := by
  induction n with
  | zero => rfl
  | succ n ih => rw [List.replicate_succ, List.cons_append, timelineOf, ih]; rfl

/-- A high phase, a low phase, and a timeline that begins high or is over: one pulse, and then the timeline's. -/
theorem timelineOf_pulse (m n : Nat) {ls : List Level} (h : (timelineOf ls).before = 0) :
    timelineOf (List.replicate (m + 1) true ++ (List.replicate (n + 1) false ++ ls)) =
      ⟨0, ⟨m + 1, n + 1⟩ :: (timelineOf ls).pulses⟩ := by
  induction m with
  | zero => simp [timelineOf, timelineOf_low, h]
  | succ m ih => rw [List.replicate_succ, List.cons_append, timelineOf, ih]; rfl

/-- What a strip reads from a line that is all low: an `RST` if it lasts the reset time, else nothing (R171). -/
theorem receivedTrace_low (tol before : Nat) : receivedTrace tol ⟨before, []⟩ = some (afterLow before []) := rfl

/-- The low before the first rising edge only puts an `RST` in front. -/
theorem receivedTrace_of_pulses {tol : Nat} {tl : Timeline} {syms : List Symbol}
    (h : receivedPulses tol tl.pulses = some syms) : receivedTrace tol tl = some (afterLow tl.before syms) := by
  rw [receivedTrace, h, Option.map_some]

/-- A numeral is read as its value. -/
theorem digitsValue_digitChar {base : Nat} (hb : base ≤ 16) {ds : List Nat} (h : ∀ d ∈ ds, d < base) (acc : Nat) :
    digitsValue base acc (ds.map Nat.digitChar) = some (ds.foldl (fun v d => v * base + d) acc) := by
  induction ds generalizing acc with
  | nil => rfl
  | cons d ds ih =>
    obtain ⟨hd, ht⟩ := List.forall_mem_cons.mp h
    have hv : digitValue base d.digitChar = some d := by
      have h16 : d < 16 := by omega
      unfold digitValue
      interval_cases d <;> simp [Nat.digitChar, hd]
    rw [List.map_cons, digitsValue, hv, List.foldl_cons]
    exact ih ht _

end Sys2Proof.Machine
end

