-- ==== Sys2Proof/Laws/PerInstr.lean ====
section
/-! SUPPORT. What is said of every operation as syntax, one lemma for each constructor. -/

namespace Sys2Proof.Laws

/-- `op` of a word put together from two bits and forty. -/
theorem opField_wordOf (op : BitVec 2) (rest : Operands) : opField (wordOf op rest) = op := by
  apply BitVec.eq_of_getLsbD_eq
  intro i hi
  have h : 40 + i < 42 := by omega
  simp [opField, wordOf, hi, h]

/-- A word whose `op` is not 0 is not the all-zero word. -/
theorem wordOf_ne_zero {op : BitVec 2} (h : op ≠ 0#2) (rest : Operands) : wordOf op rest ≠ 0#42 := by
  intro h0
  apply h
  rw [← opField_wordOf op rest, h0]
  decide

end Sys2Proof.Laws

namespace Sys2Proof.Laws.Encoded

/-- An operation has a command word exactly when it is well-formed as a command (R76, R77), and the all-zero word is
the word of a reserved operation only (R78). -/
def Statement (i : Instr) : Prop :=
  (encode i).isSome = i.wellFormed ∧ (encode i = some 0#42 → ∃ rest, i = .reserved rest)

theorem clkcfg : Statement .clkcfg := ⟨rfl, nofun⟩

theorem reserved (rest : Operands) : Statement (.reserved rest) := ⟨rfl, fun _ => ⟨rest, rfl⟩⟩

theorem clear (ignored : Operands) : Statement (.clear ignored) :=
  ⟨rfl, fun h => absurd (Option.some.inj h) (wordOf_ne_zero (by decide) ignored)⟩

theorem set (idx : IndexField) (r g b : Byte) : Statement (.set idx r g b) :=
  ⟨rfl, fun h => absurd (Option.some.inj h) (wordOf_ne_zero (by decide) _)⟩

theorem transmit (ignored : Operands) : Statement (.transmit ignored) :=
  ⟨rfl, fun h => absurd (Option.some.inj h) (wordOf_ne_zero (by decide) ignored)⟩

theorem bit0 : Statement .bit0 := ⟨rfl, nofun⟩

theorem bit1 : Statement .bit1 := ⟨rfl, nofun⟩

theorem reset : Statement .reset := ⟨rfl, nofun⟩

end Sys2Proof.Laws.Encoded
end

