-- ==== Sys2Proof/Tests/Slice0.lean ====
section
/-! SUPPORT. Tests: ill-formed terms refused, words and waveforms written out from the spec, a few of its vectors on
one step each, and for every statement with hypotheses a state and operands that meet them. -/

namespace Sys2Proof.Tests

open Sys2Proof.Machine

/-! ### Small machines -/

/-- Parameters of a strip of `n` LEDs. -/
def parOf (n : Nat) (bound : RetryBound) : Params :=
  { n := n, tResetCyc := 20000, tSettleCyc := 2, maxRetry := bound, clkSrcReset := ⟨0⟩, clkSrcTarget := ⟨1⟩,
    clkDivReset := ⟨2⟩, clkDivTarget := ⟨3⟩, fReset := 1000000, pin := 0, tolNs := 150 }

/-- A core right after reset, with inputs to come. -/
def fresh (bound : RetryBound) (env : List Input) : State := { State.resetAt (parOf 1 bound) 0 with env := env }

/-- A stable core that waits for a command. -/
def ready (n : Nat) (bytes : List Byte) (env : List Input) : State :=
  { State.resetAt (parOf n .inf) 0 with
    seq := .idle, clkSrc := ⟨1⟩, clkDiv := ⟨3⟩, fb := bytes.zipIdx.map (fun c => (c.2, c.1)), env := env }

/-- A core in the fault-clearing loop. -/
def looping (bound : RetryBound) (env : List Input) : State :=
  { fresh bound env with seq := .cfgFclr, clkSrc := ⟨1⟩, clkDiv := ⟨3⟩ }

/-- The next state, where there is one. -/
def stateOf : Host.Outcome State Fault Refusal → State
  | .next s => s
  | .fault _ => State.reset
  | .refused _ => State.reset

/-- The oscillator reports a fault. -/
def faulty : Input := { quiet with oscFaultSet := true }

/-- Reset is asserted. -/
def resetting : Input := { quiet with rstN := false }

/-! ### Well-formedness: each check refuses a term -/

theorem test_clkcfg_is_no_command : Instr.clkcfg.wellFormed = false := by decide
theorem test_bit0_is_no_command : Instr.bit0.wellFormed = false ∧ encode .bit0 = none := by decide
theorem test_bit1_is_no_command : Instr.bit1.wellFormed = false ∧ encode .bit1 = none := by decide
theorem test_latch_is_no_command : Instr.reset.wellFormed = false ∧ encode .reset = none := by decide
theorem test_no_led : ¬({ parOf 0 .inf with fReset := 1 }).wellFormed := by decide
theorem test_too_many_leds : ¬(parOf 32768 .inf).wellFormed := by decide
theorem test_latch_too_short : ¬({ parOf 1 .inf with tResetCyc := 19999 }).wellFormed := by decide
theorem test_no_retry : ¬(parOf 1 (.finite 0)).wellFormed := by decide
theorem test_no_frequency : ¬({ parOf 1 .inf with fReset := 0 }).wellFormed := by decide
theorem test_parameters_in_range : (parOf 3 (.finite 1)).wellFormed := by decide

/-- R28's own figure, and its formula where the largest is a power of two. -/
theorem test_widths :
    (parOf 3 .inf).cntWidth = 15 ∧ ({ parOf 3 .inf with tSettleCyc := 32767 }).cntWidth = 15 ∧
      ({ parOf 3 .inf with tSettleCyc := 32768 }).cntFormula = 15 ∧ (parOf 3 .inf).byteIdxWidth = 4 := by decide

/-! ### Decoding: words and waveforms written out from R74, R76, R80 and vectors V30 to V37 -/

theorem test_word_clear : decode 0b010000000000000000000000000000000000000000#42 = .clear 0#40 := by decide
theorem test_word_clear_ones : decode 0x1FFFFFFFFFF#42 = .clear 0xFFFFFFFFFF#40 := by decide
theorem test_word_set :
    decode 0b100000000000000010000000010000001000000011#42 = .set 2#16 1#8 2#8 3#8 := by decide
theorem test_word_set_v37 : decode 0x2FFFF090909#42 = .set (BitVec.ofInt 16 (-1)) 9#8 9#8 9#8 := by decide
theorem test_word_transmit : decode 0x31234ABCDEF#42 = .transmit 0x1234ABCDEF#40 := by decide
theorem test_word_reserved : decode 0x00005010203#42 = .reserved 0x0005010203#40 := by decide
theorem test_encode_v23 : encode (.set 2#16 10#8 20#8 30#8) = some 0x200020A141E#42 := by decide
theorem test_wave_bit0 : decodeWave 23 0b11111000000000000000000 = .ok .bit0 := rfl
theorem test_wave_bit1 : decodeWave 25 0b1111111111111111000000000 = .ok .bit1 := rfl
theorem test_wave_latch : decodeTableWord 20000 0 = some .reset := by decide
theorem test_wave_short_latch : decodeTableWord 19992 0 = none := by decide
theorem test_no_encoding : decodeTableWord 0 0 = some .clkcfg := by decide
theorem test_wide_word : decodeTableWord 48 0x40000000000 = none := by decide

/-! ### Vectors: one step each -/

/-- R91. -/
theorem test_clkcfg_write : (stateOf (step (fresh .inf []))).clkSrc = ⟨1⟩ ∧
    (stateOf (step (fresh .inf []))).cnt = 2 := by decide
/-- V5. -/
theorem test_clkcfg_v5 : (stateOf (step (looping (.finite 1) [faulty]))).seq = .cfgFailed ∧
    (stateOf (step (looping (.finite 1) [faulty]))).err = 1#2 := by decide
/-- V7. -/
theorem test_bit0_v7 : (stateOf (exec .bit0 (ready 1 [] []))).wire = [⟨true, 5⟩, ⟨false, 18⟩] := by decide
/-- V8. -/
theorem test_bit1_v8 : (stateOf (exec .bit1 (ready 1 [] []))).wire = [⟨true, 16⟩, ⟨false, 9⟩] := by decide
/-- V9. -/
theorem test_latch_v9 : (stateOf (exec .reset (ready 1 [] []))).wire = [⟨false, 20000⟩] := by decide
/-- V16. -/
theorem test_transmit_v16 :
    (stateOf (step (ready 1 [0xA5#8, 0x3C#8, 0x0F#8] [offer 0x30000000000#42]))).syms =
      [.b1, .b0, .b1, .b0, .b0, .b1, .b0, .b1, .b0, .b0, .b1, .b1, .b1, .b1, .b0, .b0,
        .b0, .b0, .b0, .b0, .b1, .b1, .b1, .b1, .rst] := by decide
/-- V12. -/
theorem test_transmit_v12 :
    wireCycles (stateOf (step (ready 1 [0x80#8, 0#8, 1#8] [offer 0x30000000000#42]))).wire = 20556 := by decide
/-- V21. -/
theorem test_clear_v21 :
    (stateOf (step (ready 1 [1#8, 2#8, 3#8] [offer 0x10000000000#42]))).fb = [(0, 0#8), (1, 0#8), (2, 0#8)] := by
  decide
/-- V23. -/
theorem test_set_v23 :
    (stateOf (step (ready 3 [1#8, 2#8, 3#8, 4#8, 5#8, 6#8, 7#8, 8#8, 9#8] [offer 0x200020A141E#42]))).fb.map Prod.snd =
      [1#8, 2#8, 3#8, 4#8, 5#8, 6#8, 20#8, 10#8, 30#8] := by decide
/-- V24 and V26: the first index out of range faults, a negative one does nothing. -/
theorem test_set_v24_v26 :
    (stateOf (step (ready 3 [] [offer 0x20003010101#42]))).err = 2#2 ∧
      (stateOf (step (ready 3 [] [offer 0x2FFFFFFFFFF#42]))).err = 0#2 ∧
      (stateOf (step (ready 3 [] [offer 0x20003010101#42]))).fb = [] := by decide
/-- V34. -/
theorem test_reserved_v34 : (stateOf (step (ready 1 [] [offer 0#42]))).err = 3#2 := by decide
/-- V39: the first fault is kept. -/
theorem test_reserved_v39 : (stateOf (step { ready 1 [] [offer 0#42] with err := 2#2 })).err = 2#2 := by decide

/-- V18, edge 0: the acceptance of `TRANSMIT`. -/
theorem test_edge_v18_start :
    (fun t : State => (t.seq, t.dout, t.byteIdx, t.bitIdx, t.curBit, t.cnt))
        (stateOf (edge (ready 1 [0x80#8, 0#8, 0#8] [offer 0x30000000000#42]))) =
      (.txHigh, true, 0, 7#3, true, 15) := by decide
/-- V18, edge 186: the advance to the next byte. -/
theorem test_edge_v18_next_byte :
    (fun t : State => (t.seq, t.byteIdx, t.bitIdx, t.cnt))
        (stateOf (edge { ready 1 [0x80#8, 0#8, 0#8] [quiet] with seq := .txLow })) = (.txHigh, 1, 7#3, 4) := by decide
/-- V20(a): reset cuts a frame; the wire keeps what was emitted. -/
theorem test_reset_v20 :
    (fun t : State => (t.seq, t.dout, t.wire, t.err))
        (stateOf (edge { ready 1 [] [resetting] with seq := .txHigh, dout := true, cnt := 5, wire := [⟨true, 10⟩], err := 2#2 })) =
      (.cfgWrite, false, [⟨true, 10⟩], 0#2) := by decide

/-- R84: a line with a comment. -/
theorem test_assemble_line :
    assembleLine ['S', 'E', 'T', ' ', '-', '1', ',', ' ', '0', 'x', 'F', 'F', ',', '9', ',', '0', ' ', ';', 'x'] =
      some 0x2FFFFFF0900#42 := by decide
/-- R84: an operand out of range is no command. -/
theorem test_assemble_refuses :
    assembleLine ['S', 'E', 'T', ' ', '0', ',', '2', '5', '6', ',', '0', ',', '0'] = none := by decide

/-- R84: a program's word waits through `CLKCFG`, is taken at `IDLE`, and the next one waits for its turn. -/
theorem test_program_held :
    (stateOf (step ((fresh .inf []).withProgram [0x10000000000#42]))).prog = [0x10000000000#42] ∧
      (stateOf (edge ((ready 1 [] []).withProgram [0x10000000000#42, 0#42]))).prog = [0#42] ∧
      (stateOf (edge { (ready 1 [] []).withProgram [0#42] with seq := .exec })).prog = [0#42] := by decide
/-- R84: a word the host lists for the step goes first, and the program's waits. -/
theorem test_program_waits_for_listed :
    (stateOf (step ((ready 1 [] [offer 0#42]).withProgram [0x10000000000#42]))).err = 3#2 ∧
      (stateOf (step ((ready 1 [] [offer 0#42]).withProgram [0x10000000000#42]))).prog = [0x10000000000#42] := by decide

/-- V10, the rows at tolerance 150. -/
theorem test_conformance_v10 :
    conformsBit0 150 400 900 = true ∧ conformsBit0 150 401 900 = false ∧ conformsBit0 150 250 1051 = false ∧
      conformsBit1 150 650 450 = true ∧ conformsBit1 150 649 450 = false ∧ conformsBit0 150 800 450 = false ∧
      conformsReset 1000000 = true ∧ conformsReset 999950 = false := by decide
/-- R81: the high phase alone says which bit it is; at V10's 401 and 649 ns none. -/
theorem test_received_bit :
    receivedBit 150 250 = some false ∧ receivedBit 150 650 = some true ∧ receivedBit 150 401 = none ∧
      receivedBit 150 649 = none := by decide
/-- `BIT1; BIT0` with no gap after an idle line, two pulses (V9's string, R109). -/
theorem test_capture :
    captureNs [⟨false, 3⟩, ⟨true, 16⟩, ⟨false, 9⟩, ⟨true, 2⟩, ⟨true, 3⟩, ⟨false, 10⟩, ⟨false, 8⟩] =
      ⟨150, [⟨800, 450⟩, ⟨250, 900⟩]⟩ := by decide
/-- R81, R171: a line low for the reset time, from reset on, is an `RST`, before a symbol too; one cycle less is none. -/
theorem test_received_low :
    receivedTrace 150 ⟨1000000, []⟩ = some [.rst] ∧ receivedTrace 150 ⟨999950, []⟩ = some [] ∧
      receivedTrace 150 ⟨1000000, [⟨800, 450⟩]⟩ = some [.rst, .b1] := by decide
/-- R111: the last low phase runs on into the reset period, whose rest must reach 1000000 ns. -/
theorem test_last_symbol :
    conformsTimeline 150 [.b1, .b0, .rst] ⟨0, [⟨650, 600⟩, ⟨400, 1000900⟩]⟩ = true ∧
      conformsTimeline 150 [.b1, .b0, .rst] ⟨0, [⟨650, 600⟩, ⟨400, 1000850⟩]⟩ = false ∧
      conformsTimeline 150 [.b1, .b0] ⟨0, [⟨650, 600⟩, ⟨400, 1000900⟩]⟩ = false ∧
      conformsTimeline 150 [.b0] ⟨0, [⟨250, 900⟩, ⟨250, 900⟩]⟩ = false ∧
      receivedTrace 150 ⟨0, [⟨650, 600⟩, ⟨400, 1000900⟩]⟩ = some [.b1, .b0, .rst] := by decide

/-- The first step after reset runs the placed row (the command rows and the rest). -/
theorem test_placed_after_reset :
    (State.reset.withFetchWord 48 0x10000000000).current = some (.clear 0#40) ∧
      (State.reset.withFetchWord 24 0x7C0000).current = some .bit0 ∧
      (State.reset.withFetchWord 0 0).current = some .clkcfg := by decide

end Sys2Proof.Tests
end

