-- ==== Sys2Proof/Tests/Witnesses.lean ====
section
/-! SUPPORT. For every statement with hypotheses, a concrete state and operands that meet them together; for a
statement with several clauses one for each, at the values where they meet. -/

namespace Sys2Proof.Tests

open Sys2Proof.Machine

/-- The command words used below. -/
def wClear : CmdWord := 0x10000000000#42
def wSet : CmdWord := 0x20000010203#42
def wTransmit : CmdWord := 0x30000000000#42

/-- A core at the first cycle of a symbol for `c`. -/
def atHigh (c : Bool) (env : List Input) : State :=
  { ready 1 [if c then 0x80#8 else 0#8] env with
    seq := .txHigh, dout := true, bitIdx := 7#3, curBit := c, cnt := highCycles c - 1 }

/-- A core at the first cycle of the latch period. -/
def atLatch (env : List Input) : State := { ready 1 [] env with seq := .txLatch, cnt := 19999 }

/-! ### States that meet the invariant -/

/-- A stable core that waits meets the invariant. -/
theorem inv_ready (bytes : List Byte) (h : bytes = [] ∨ bytes = [0x80#8, 0#8, 0#8]) (env : List Input) :
    Inv (ready 1 bytes env) := by
  rcases h with rfl | rfl <;> constructor <;> simp [ready, State.resetAt] <;> decide

/-- A core at the first cycle of a bit symbol meets the invariant. -/
theorem inv_atHigh (c : Bool) (env : List Input) : Inv (atHigh c env) := by
  cases c <;> constructor <;> simp [atHigh, ready, State.resetAt, State.fbByte, Memory.read?] <;> decide

/-- A core at the first cycle of the latch period meets the invariant. -/
theorem inv_atLatch (env : List Input) : Inv (atLatch env) := by
  constructor <;> simp [atLatch, ready, State.resetAt] <;> decide

/-! ### Encodings -/

theorem witness_DecodeReadsBackEncode :
    (Instr.set 0xFFFF#16 1#8 2#8 3#8).wellFormed = true ∧ (Instr.reserved 0#40).wellFormed = true := by decide

theorem witness_IgnoredFieldsHaveNoEffect :
    (opField wClear = opField 0x1FFFFFFFFFF#42 ∧ opField wClear = 0b01#2) ∧
      opField wTransmit = opField 0x31234ABCDEF#42 ∧ opField wTransmit = 0b11#2 := by decide

/-- The least and the largest index, a colour in each form, an end of line with and without a comment. -/
theorem witness_AssembledLineDecodes :
    IsLineEnd [] ∧ IsLineEnd [' ', ';', 'x'] ∧ IsIndexText ['3', '2', '7', '6', '7'] 32767 ∧
      IsIndexText ['-', '3', '2', '7', '6', '8'] (-32768) ∧ IsColourText ['0'] 0#8 ∧
      IsColourText ['2', '5', '5'] 255#8 ∧ IsColourText ['0', 'x', 'f', 'f'] 255#8 ∧
      assemble [['C', 'L', 'E', 'A', 'R']] = some [wClear] ∧ assembleLine ['C', 'L', 'E', 'A', 'R'] = some wClear :=
  ⟨⟨0, [], .inl rfl⟩, ⟨1, ['x'], .inr rfl⟩, ⟨32767, .inl ⟨⟨[3, 2, 7, 6, 7], by decide⟩, rfl⟩⟩,
    ⟨32768, .inr ⟨_, rfl, ⟨[3, 2, 7, 6, 8], by decide⟩, rfl⟩⟩, .inl ⟨[0], by decide⟩, .inl ⟨[2, 5, 5], by decide⟩,
    .inr ⟨_, rfl, [15, 15], by decide⟩, by decide, by decide⟩

/-! ### The host's program -/

/-- A word held while not ready and through a reset, one that waits for a listed word, one that is accepted. -/
theorem witness_ProgramWordHeldUntilAccepted :
    (∃ t, step ((fresh .inf []).withProgram [wClear]) = .next t) ∧
      ((fresh .inf []).withProgram [wClear]).cmdReady = false ∧
      ((ready 1 [] [resetting]).withProgram [wClear]).input.rstN = false ∧
      ((ready 1 [] [offer wSet]).withProgram [wClear]).listedInput.cmd = some wSet ∧
      ((ready 1 [] []).withProgram [wClear]).cmdReady = true ∧
      ((ready 1 [] []).withProgram [wClear]).input.rstN = true ∧
      ((ready 1 [] []).withProgram [wClear]).listedInput.cmd = none ∧
      ∃ t, edge ((ready 1 [] []).withProgram [wClear]) = .next t :=
  ⟨⟨_, rfl⟩, by decide, by decide, by decide, by decide, by decide, by decide, _, rfl⟩

theorem witness_ProgramRunsInOrder :
    ((ready 1 [] [quiet]).withProgram [wClear, wSet, wTransmit]).seq = .idle ∧
      (∀ i ∈ ((ready 1 [] [quiet]).withProgram [wClear, wSet, wTransmit]).env, i.rstN = true ∧ i.cmd = none) ∧
      ((ready 1 [] [quiet]).withProgram [wClear, wSet, wTransmit]).prog = [wClear, wSet] ++ [wTransmit] :=
  ⟨rfl, by simp [State.withProgram, ready, quiet], rfl⟩

/-! ### The step -/

theorem witness_StepRunsCurrentOperation :
    (ready 1 [] [offer wSet]).input.rstN = true ∧
      (ready 1 [] [offer wSet]).current = some (.set 0#16 1#8 2#8 3#8) ∧
      (atHigh true [quiet]).input.rstN = true ∧ (atHigh true [quiet]).current = some .bit1 ∧
      (atHigh false [quiet]).current = some .bit0 ∧ (atLatch [quiet]).current = some .reset := by decide

theorem witness_OfferedWordRunsAtIdle :
    (ready 1 [] [offer wClear]).input.rstN = true ∧ (ready 1 [] [offer wClear]).seq = .idle ∧
      (ready 1 [] [offer wClear]).input.cmd = some wClear := by decide

theorem witness_PlacedRowIsRunNext :
    1 ≤ (ready 1 [] []).par.tResetCyc ∧ decodeTableWord 48 0x3FFFFFFFFFF = some (.transmit 0xFFFFFFFFFF#40) ∧
      decodeTableWord 32 0x1FFFE00 = some .bit1 := by decide

/-! ### Reset -/

theorem witness_ResetInputOverrides : (atHigh true [resetting]).input.rstN = false := by decide

/-! ### Clock configuration -/

theorem witness_ClkcfgWritesRegisters : (fresh .inf []).seq = .cfgWrite := by decide

/-- A core in the settle wait with `cnt` cycles left. -/
def settling (cnt : Nat) (env : List Input) : State := { fresh .inf env with seq := .cfgSettle, cnt := cnt }

theorem witness_ClkcfgSettleWait :
    (settling 0 []).seq = .cfgSettle ∧ (settling 3 [quiet]).released ∧ 3 ≤ (settling 3 [quiet]).cnt :=
  ⟨rfl, by simp [State.released, settling, fresh, quiet], by decide⟩

theorem witness_ClkcfgLoopIteration :
    (looping (.finite 1) [faulty]).seq = .cfgFclr ∧
      (looping (.finite 1) [quiet]).input.oscFaultSet = false ∧
      ((looping (.finite 2) [faulty]).input.oscFaultSet = true ∧
        boundUsedUp (looping (.finite 2) [faulty]).par.maxRetry 1 = false) ∧
      (looping (.finite 1) [faulty]).input.oscFaultSet = true ∧
      boundUsedUp (looping (.finite 1) [faulty]).par.maxRetry 1 = true := by decide

theorem witness_ClkcfgRunsOnce :
    ({ looping .inf [] with seq := .cfgFailed }).seq = .cfgFailed ∧ (ready 1 [] []).clkStable = true := by decide

theorem witness_ClkcfgFrame :
    ∃ t, exec .clkcfg (looping .inf [quiet]) = .next t ∧ t.seq ≠ .cfgFailed := ⟨_, rfl, by decide⟩

theorem witness_ClkcfgHangsWhileFaultReported :
    (looping .inf [faulty, faulty]).seq = .cfgFclr ∧ (looping .inf [faulty, faulty]).par.maxRetry = .inf ∧
      (looping .inf [faulty, faulty]).released ∧
      ∀ j < 2, ((looping .inf [faulty, faulty]).inputAt j).oscFaultSet = true :=
  ⟨rfl, rfl, by simp [State.released, looping, fresh, faulty, quiet], by decide⟩

theorem witness_ClkcfgTimesOut :
    (looping (.finite 2) [faulty, faulty]).err = 0#2 ∧
      (looping (.finite 2) [faulty, faulty]).par.maxRetry =
        .finite ((looping (.finite 2) [faulty, faulty]).retryCnt + (1 + 1)) ∧
      (looping (.finite 2) [faulty, faulty]).released ∧
      ∀ j < 1 + 1, ((looping (.finite 2) [faulty, faulty]).inputAt j).oscFaultSet = true :=
  ⟨rfl, rfl, by simp [State.released, looping, fresh, faulty, quiet], by decide⟩

/-- The inputs of P5: two cycles around the settle wait, then faults, then none. -/
def p5 : State := fresh (.finite 3) [quiet, quiet, quiet, quiet, faulty, faulty, quiet]

theorem witness_ClkcfgReachesStable :
    p5.seq = .cfgWrite ∧ p5.released ∧ (∀ j < 2, (p5.inputAt (p5.par.tSettleCyc + 2 + j)).oscFaultSet = true) ∧
      (p5.inputAt (p5.par.tSettleCyc + 2 + 2)).oscFaultSet = false ∧
      boundUsedUp p5.par.maxRetry (p5.retryCnt + 2) = false :=
  ⟨rfl, by simp [State.released, p5, fresh, faulty, quiet], by decide, by decide, by decide⟩

theorem witness_NoCommandBeforeStable : (fresh .inf [offer wClear]).clkStable = false := by decide

theorem witness_StableUntilReset :
    (ready 1 [] [quiet]).clkStable = true ∧ (ready 1 [] [quiet]).input.rstN = true ∧
      ∃ t, step (ready 1 [] [quiet]) = .next t := ⟨by decide, by decide, _, rfl⟩

/-! ### The pulses, TRANSMIT and the frame buffer -/

theorem witness_ResetLatchWaveform : (ready 1 [] []).par.wellFormed := by decide

theorem witness_WaveformsConform : (150 : Nat) ≤ 150 ∧ (parOf 1 .inf).wellFormed := by decide

theorem witness_ConformingTimelineDecodes :
    (274 : Nat) < 275 ∧ conformsTimeline 274 [.b0, .b1, .rst] ⟨999999, [⟨524, 900⟩, ⟨526, 1000450⟩]⟩ = true ∧
      conformsTimeline 274 [.rst, .b0] ⟨1000000, [⟨250, 900⟩]⟩ = true := by decide

theorem witness_CapturedFrameConforms :
    (ready 1 [0x80#8] []).par.wellFormed ∧ (ready 1 [0x80#8] []).seq = .idle ∧
      (ready 1 [0x80#8] []).par.tolNs < 275 ∧
      (ready 1 [0x80#8] []).conforms (captureNs (ready 1 [0x80#8] []).wire) = true := by decide

theorem witness_TransmitSendsFrame :
    (ready 1 [] []).seq = .idle ∧ (atLatch []).seq ≠ .idle := by decide

theorem witness_TransmitCountsSymbols : (ready 3 [] []).seq = .idle := by decide

theorem witness_TransmitDurationAndRises : (ready 1 [0xFF#8] []).seq = .idle := by decide

theorem witness_TransmitIdempotent : (ready 2 [] []).seq = .idle := by decide

theorem witness_ClearZeroesBuffer :
    (ready 1 [9#8] []).seq = .idle ∧ (2 : Nat) < 3 * (ready 1 [9#8] []).par.n ∧
      3 * (ready 1 [9#8] []).par.n ≤ 3 ∧ (fresh .inf []).seq ≠ .idle := by decide

/-- The ranges of `SET` where they meet, for `N = 3`: -32768 and -1, 0 and 2, 3 and 32767. -/
theorem witness_SetThreeCases :
    (ready 3 [] []).seq = .idle ∧ (0x8000#16).toInt < 0 ∧ (0xFFFF#16).toInt < 0 ∧
      (0 ≤ (0#16).toInt ∧ (0#16).toInt < (ready 3 [] []).par.n) ∧
      (0 ≤ (2#16).toInt ∧ (2#16).toInt < (ready 3 [] []).par.n) ∧
      ((ready 3 [] []).par.n : Int) ≤ (3#16).toInt ∧ ((ready 3 [] []).par.n : Int) ≤ (0x7FFF#16).toInt := by
  decide

theorem witness_TestableMemoryLaws :
    (ready 3 [] []).seq = .idle ∧ (0 ≤ (2#16).toInt ∧ (2#16).toInt < (ready 3 [] []).par.n) ∧
      2 < (ready 3 [] []).par.n := by decide

theorem witness_IndexRangesAndOffsets :
    (32767 : Nat) ≤ 32767 ∧ indexRange 32767 0x7FFE#16 = .valid 32766 ∧ indexRange 32767 0x7FFF#16 = .tooLarge ∧
      indexRange 32767 0x8000#16 = .negative := by decide

theorem witness_ReservedWordRecordsIllegal : (ready 1 [] []).seq = .idle := by decide

/-! ### The whole machine -/

/-- The widths at their edges: one LED, a settle time of 32767, and the power of two that R91 loads. -/
theorem witness_RegistersFitTheirWidths :
    Inv (ready 1 [] []) ∧ 1 ≤ (parOf 1 .inf).n ∧
      ({ parOf 1 .inf with tSettleCyc := 32768 }).tSettleCyc =
        2 ^ ({ parOf 1 .inf with tSettleCyc := 32768 } : Params).cntFormula ∧
      ({ parOf 1 .inf with tSettleCyc := 32767 }).tSettleCyc ≠
        2 ^ ({ parOf 1 .inf with tSettleCyc := 32767 } : Params).cntFormula ∧
      (parOf 1 .inf).tResetCyc = 20000 ∧ ({ parOf 1 .inf with tSettleCyc := 32767 }).tSettleCyc ≤ 32767 :=
  ⟨inv_ready _ (.inl rfl) _, by decide, by decide, by decide, by decide, by decide⟩

theorem witness_SystemClockFrequency :
    (ready 1 [] []).par.wellFormed ∧ (ready 1 [] []).clkStable = true ∧
      (fresh .inf []).clkState = .unconfigured := by decide

theorem witness_CommandHeldWhenNotReady : (atLatch []).seq ≠ .idle ∧ (Instr.clear 0#40).wellFormed = true := by
  decide

theorem witness_FirstFaultKeptUntilReset :
    ({ ready 1 [] [offer 0#42] with err := 2#2 }).err ≠ 0#2 ∧
      ({ ready 1 [] [offer 0#42] with err := 2#2 }).input.rstN = true ∧
      ∃ t, step { ready 1 [] [offer 0#42] with err := 2#2 } = .next t := ⟨by decide, by decide, _, rfl⟩

theorem witness_FaultsOnlyAsListed :
    (ready 1 [] [offer 0#42]).err = 0#2 ∧
      (∃ t, step (ready 1 [] [offer 0#42]) = .next t ∧ t.err ≠ 0#2) ∧
      ∃ t, step (looping (.finite 1) [faulty]) = .next t ∧ t.err ≠ 0#2 :=
  ⟨by decide, ⟨_, rfl, by decide⟩, ⟨_, rfl, by decide⟩⟩

theorem witness_BufferWrittenOnlyByClearAndSet :
    (ready 1 [] [offer wClear]).input.rstN = true ∧
      ∃ t, step (ready 1 [] [offer wClear]) = .next t ∧ t.fb ≠ (ready 1 [] [offer wClear]).fb :=
  ⟨by decide, _, rfl, by decide⟩

theorem witness_BufferConstantDuringTransmission :
    (atLatch [offer wClear]).seq.transmitting = true ∧ (atLatch [offer wClear]).input.rstN = true ∧
      ∃ t, edge (atLatch [offer wClear]) = .next t := ⟨by decide, by decide, _, rfl⟩

theorem witness_HistoriesOnlyGrow :
    (∃ t, step (atHigh true [resetting]) = .next t) ∧ ∃ t, edge (atHigh true [quiet]) = .next t :=
  ⟨⟨_, rfl⟩, _, rfl⟩

theorem witness_EdgeRecordsTheLine :
    (∃ t, edge (atHigh true [quiet]) = .next t) ∧ (atHigh true [quiet]).input.rstN = true := ⟨⟨_, rfl⟩, by decide⟩

theorem witness_EdgeFollowsTransitionTable :
    (∃ t, edge (ready 1 [0#8] [offer wTransmit]) = .next t) ∧ ∃ t, edge (atLatch [resetting]) = .next t :=
  ⟨⟨_, rfl⟩, _, rfl⟩

theorem witness_ParametersNeverChange : ∃ t, step (atHigh true [resetting]) = .next t := ⟨_, rfl⟩

/-! ### The invariant and the refinement -/

theorem witness_StepKeepsInvariant :
    (Inv (ready 1 [] [offer wSet]) ∧ ∃ t, step (ready 1 [] [offer wSet]) = .next t) ∧
      Inv (atHigh true [quiet]) ∧ ∃ t, step (atHigh true [quiet]) = .next t :=
  ⟨⟨inv_ready _ (.inl rfl) _, _, rfl⟩, inv_atHigh _ _, _, rfl⟩

theorem witness_EdgeKeepsInvariant :
    Inv (atHigh true [quiet]) ∧ ∃ t, edge (atHigh true [quiet]) = .next t := ⟨inv_atHigh _ _, _, rfl⟩

theorem witness_InvariantNeverStops : Inv (ready 1 [0x80#8, 0#8, 0#8] [offer wTransmit]) :=
  inv_ready _ (.inr rfl) _

theorem witness_EdgesRefineTransmit :
    (ready 1 [0x80#8, 0#8, 0#8] [offer wTransmit]).par.wellFormed ∧
      (ready 1 [0x80#8, 0#8, 0#8] [offer wTransmit]).seq = .idle ∧
      (ready 1 [0x80#8, 0#8, 0#8] [offer wTransmit]).released ∧
      (ready 1 [0x80#8, 0#8, 0#8] [offer wTransmit]).input.cmd = some wTransmit ∧ opField wTransmit = 0b11#2 :=
  ⟨by decide, rfl, by simp [State.released, ready, offer], by decide, by decide⟩

theorem witness_EdgesRefineBufferOperations :
    (ready 1 [] [offer wSet, quiet]).seq = .idle ∧ (ready 1 [] [offer wSet, quiet]).released ∧
      (ready 1 [] [offer wSet, quiet]).input.cmd = some wSet ∧ opField wSet ≠ 0b11#2 ∧ opField wSet ≠ 0b00#2 ∧
      opField 0#42 = 0b00#2 :=
  ⟨rfl, by simp [State.released, ready, offer, quiet], by decide, by decide, by decide, by decide⟩

theorem witness_EdgesRefineMicroOperations :
    (∀ c, Inv (atHigh c [quiet]) ∧ (atHigh c [quiet]).released ∧ ∃ u, step (atHigh c [quiet]) = .next u) ∧
      (atHigh true [quiet]).current = some .bit1 ∧ Instr.bit1.isMicro = true ∧
      (atHigh false [quiet]).current = some .bit0 ∧ Instr.bit0.isMicro = true ∧
      (Inv (atLatch [quiet]) ∧ (atLatch [quiet]).released ∧ ∃ u, step (atLatch [quiet]) = .next u) ∧
      (atLatch [quiet]).current = some .reset ∧ Instr.reset.isMicro = true :=
  ⟨fun c => ⟨inv_atHigh _ _, by simp [State.released, atHigh, ready, quiet], by cases c <;> exact ⟨_, rfl⟩⟩,
    by decide, by decide, by decide, by decide,
    ⟨inv_atLatch _, by simp [State.released, atLatch, ready, quiet], _, rfl⟩, by decide, by decide⟩

end Sys2Proof.Tests
end

section
/-! The values derived from the state (R23, R26, R31, R72), said once as facts about `SEQ`, and the reset values (R35). -/

namespace Sys2Proof.Machine

/-! ### `cmd_ready`, `BUSY` and `CLK_STABLE` -/

@[simp] theorem State.cmdReady_iff (s : State) : s.cmdReady = true ↔ s.seq = .idle := by simp [State.cmdReady]

@[simp] theorem State.busy_iff (s : State) : s.busy = true ↔ s.seq ≠ .idle := by simp [State.busy]

@[simp] theorem State.clkStable_iff (s : State) : s.clkStable = true ↔ s.clkState = .stable := by
  simp [State.clkStable]

@[simp] theorem State.clkStable_eq_false_iff (s : State) : s.clkStable = false ↔ s.clkState ≠ .stable := by
  simp [State.clkStable]

/-! ### The rows of `CLK_STATE` -/

@[simp] theorem State.clkState_eq_unconfigured_iff (s : State) : s.clkState = .unconfigured ↔ s.seq = .cfgWrite := by
  cases h : s.seq <;> simp [State.clkState, clkStateOf, h]

@[simp] theorem State.clkState_eq_settling_iff (s : State) : s.clkState = .settling ↔ s.seq = .cfgSettle := by
  cases h : s.seq <;> simp [State.clkState, clkStateOf, h]

@[simp] theorem State.clkState_eq_faultClearing_iff (s : State) : s.clkState = .faultClearing ↔ s.seq = .cfgFclr := by
  cases h : s.seq <;> simp [State.clkState, clkStateOf, h]

@[simp] theorem State.clkState_eq_failed_iff (s : State) : s.clkState = .failed ↔ s.seq = .cfgFailed := by
  cases h : s.seq <;> simp [State.clkState, clkStateOf, h]

/-- Left out of the simp set: `CLK_STATE = STABLE` is the shorter spelling of its five sequencer states. -/
theorem State.clkState_eq_stable_iff (s : State) :
    s.clkState = .stable ↔ s.seq = .idle ∨ s.seq = .exec ∨ s.seq = .txHigh ∨ s.seq = .txLow ∨ s.seq = .txLatch := by
  cases h : s.seq <;> simp [State.clkState, clkStateOf, h]

/-! ### What a state right after a reset shows -/

/-- Until the clock registers are written, the system clock is the reset one (R26). -/
theorem State.fSys_of_unconfigured {s : State} (h : s.clkState = .unconfigured) : s.fSys = s.par.fReset := by
  simp [State.fSys, h]

/-- With no byte written since the reset, the frame buffer holds the drawn values (R35). -/
theorem State.fbByte_of_fb_nil {s : State} (h : s.fb = []) (k : Nat) : s.fbByte k = Config.fbReset s.resets k := by
  simp [State.fbByte, h, Memory.read?]

@[simp] theorem State.reset_seq : State.reset.seq = .cfgWrite := rfl

theorem State.reset_clkState : State.reset.clkState = .unconfigured :=
  (State.clkState_eq_unconfigured_iff _).mpr State.reset_seq

/-! ### The settled statements -/

/-- Settles O41: each flag is a test on `SEQ`, and each row of R23's table is one case of the split on `SEQ`. -/
theorem flagsFollowSequencer : Obligations.FlagsFollowSequencer := fun s =>
  ⟨s.cmdReady_iff, s.busy_iff, s.clkStable_iff, s.clkState_eq_unconfigured_iff, s.clkState_eq_settling_iff,
    s.clkState_eq_faultClearing_iff, s.clkState_eq_failed_iff, s.clkState_eq_stable_iff⟩

/-- Settles O13: the stored elements stand in `State.resetAt`, the derived values follow from `SEQ = CFG_WRITE`, and
the bytes of `FB` are the draws because nothing is written yet. -/
theorem resetLeavesSpecValues : Obligations.ResetLeavesSpecValues := by
  have hfSys : State.reset.fSys = State.reset.par.fReset := State.fSys_of_unconfigured State.reset_clkState
  have hbusy : State.reset.busy = true := by simp
  have hstable : State.reset.clkStable = false := by simp [State.reset_clkState]
  have hfb : ∀ k, State.reset.fbByte k = Config.fbReset 0 k := State.fbByte_of_fb_nil rfl
  exact ⟨State.reset_seq, rfl, rfl, rfl, rfl, rfl, rfl, rfl, State.reset_clkState, hfSys, hbusy, hstable, hfb, rfl⟩

end Sys2Proof.Machine
end

section
/-! What `CLEAR` and `SET` do to the frame buffer, byte by byte (R136, R138), and the testable memory laws (R63). -/

namespace Sys2Proof.Machine

/-! ### Reading a byte that exists -/

theorem State.readFb_of_lt {s : State} {k : Nat} (h : k < s.par.fbLen) : s.readFb k = some (s.fbByte k) := by
  simp [State.readFb, h]

/-- The three bytes of an LED of the strip exist (R51). -/
theorem Params.ledOffsets_lt_fbLen {p : Params} {led : Nat} (h : led < p.n) :
    3 * led < p.fbLen ∧ 3 * led + 1 < p.fbLen ∧ 3 * led + 2 < p.fbLen := by
  unfold Params.fbLen
  omega

/-! ### A command on the port: accepted from `IDLE` only (R73) -/

theorem State.whenReady_of_idle {s : State} (h : s.seq = .idle) (t : State) : s.whenReady t = t := by
  simp [State.whenReady, h]

@[simp] theorem State.whenReady_self (s : State) : s.whenReady s = s := ite_self s

theorem exec_clear (ignored : Operands) (s : State) : exec (.clear ignored) s = .next (s.whenReady s.clearFb) := rfl

theorem exec_set (idx : IndexField) (r g b : Byte) (s : State) :
    exec (.set idx r g b) s = .next (s.whenReady (s.setLed idx r g b)) := rfl

/-! ### `CLEAR` -/

@[simp] theorem State.clearFb_par (s : State) : s.clearFb.par = s.par := by rw [State.clearFb_eq]

/-- Zeroing the listed offsets one by one makes those bytes 0 and keeps every other one. -/
theorem State.fbByte_foldl_writeFb_zero (ks : List Nat) (s : State) (j : Nat) :
    (ks.foldl (fun t k => t.writeFb k 0#8) s).fbByte j = if j ∈ ks then 0#8 else s.fbByte j := by
  induction ks generalizing s with
  | nil => simp
  | cons k ks ih =>
    rw [List.foldl_cons, ih, State.fbByte_writeFb]
    by_cases hj : j = k <;> simp [hj]

theorem State.fbByte_clearFb (s : State) (j : Nat) :
    s.clearFb.fbByte j = if j < s.par.fbLen then 0#8 else s.fbByte j := by
  simp [State.clearFb, State.fbByte_foldl_writeFb_zero]

/-- After `CLEAR` every byte that exists reads 0. -/
theorem State.readFb_clearFb {s : State} {k : Nat} (h : k < s.par.fbLen) : s.clearFb.readFb k = some 0#8 := by
  have hk : k < s.clearFb.par.fbLen := by rwa [State.clearFb_par]
  rw [State.readFb_of_lt hk, State.fbByte_clearFb, if_pos h]

/-! ### `SET` -/

@[simp] theorem State.storeColor_par (s : State) (led : Nat) (r g b : Byte) :
    (s.storeColor led r g b).par = s.par := rfl

/-- A stored colour is the LED's Color Entry, in wire order. -/
theorem State.colorEntry_storeColor (s : State) (led : Nat) (r g b : Byte) :
    (s.storeColor led r g b).colorEntry led = (g, r, b) := by
  simp [State.colorEntry, State.storeColor, State.fbByte_writeFb]

/-- After a colour is stored for an LED of the strip, its three offsets read Green, Red, Blue. -/
theorem State.readFb_storeColor {s : State} {led : Nat} (h : led < s.par.n) (r g b : Byte) :
    (s.storeColor led r g b).readFb (3 * led) = some g ∧ (s.storeColor led r g b).readFb (3 * led + 1) = some r ∧
      (s.storeColor led r g b).readFb (3 * led + 2) = some b := by
  have hn : led < (s.storeColor led r g b).par.n := by rwa [State.storeColor_par]
  obtain ⟨k0, k1, k2⟩ := Params.ledOffsets_lt_fbLen hn
  rw [State.readFb_of_lt k0, State.readFb_of_lt k1, State.readFb_of_lt k2]
  simpa [State.colorEntry, baseOffset] using s.colorEntry_storeColor led r g b

/-- An index in range, read signed, is the number of an LED (R54). -/
theorem toNat_lt_of_toInt_lt {n : Nat} {idx : IndexField} (h0 : 0 ≤ idx.toInt) (hn : idx.toInt < n) :
    idx.toNat < n := by
  have hs : idx.toInt = idx.toNat := BitVec.toInt_eq_toNat_of_lt (BitVec.toInt_pos_iff.mp h0)
  omega

theorem State.setLed_of_negative (s : State) {idx : IndexField} (h : idx.toInt < 0) (r g b : Byte) :
    s.setLed idx r g b = s := by
  rcases s.setLed_cases idx r g b with ⟨-, e⟩ | ⟨h0, -, -⟩ | ⟨h0, -, -⟩
  · exact e
  · exact absurd h (not_lt.mpr h0)
  · exact absurd h (not_lt.mpr h0)

theorem State.setLed_of_valid (s : State) {idx : IndexField} (h0 : 0 ≤ idx.toInt) (hn : idx.toNat < s.par.n)
    (r g b : Byte) : s.setLed idx r g b = s.storeColor idx.toNat r g b := by
  rcases s.setLed_cases idx r g b with ⟨h, -⟩ | ⟨-, -, e⟩ | ⟨-, h, -⟩
  · exact absurd h (not_lt.mpr h0)
  · exact e
  · exact absurd hn (not_lt.mpr h)

/-- `SET` with a negative index has no effect in any sequencer state: it is held, or it is the no-op of R138. -/
theorem exec_set_of_negative (s : State) {idx : IndexField} (h : idx.toInt < 0) (r g b : Byte) :
    exec (.set idx r g b) s = .next s := by
  rw [exec_set, s.setLed_of_negative h, State.whenReady_self]

/-! ### The settled statement -/

/-- Settles O37: the bytes of an LED of the strip exist, so a read gives what `SET` stored there or the 0 of `CLEAR`;
`SET -1` does not change the state at all. -/
theorem testableMemoryLaws : Obligations.TestableMemoryLaws := by
  refine ⟨fun s idx r g b hidle h0 hlt => ?_, fun s ignored led hidle hled => ?_, fun s r g b => ?_⟩
  · have hled : idx.toNat < s.par.n := toNat_lt_of_toInt_lt h0 hlt
    refine ⟨s.storeColor idx.toNat r g b, ?_, State.readFb_storeColor hled r g b⟩
    rw [exec_set, State.whenReady_of_idle hidle, s.setLed_of_valid h0 hled]
  · obtain ⟨k0, k1, k2⟩ := Params.ledOffsets_lt_fbLen hled
    refine ⟨s.clearFb, ?_, State.readFb_clearFb k0, State.readFb_clearFb k1, State.readFb_clearFb k2⟩
    rw [exec_clear, State.whenReady_of_idle hidle]
  · exact ⟨s, exec_set_of_negative s (by decide) r g b, fun _ => rfl⟩

end Sys2Proof.Machine
end

section
/-! The opcode map (R76): which operation each value of `op` gives, and the match under the mask of `op`. -/

namespace Sys2Proof

/-! ### The four values of `op` -/

theorem opField_cases (w : CmdWord) :
    opField w = 0b00#2 ∨ opField w = 0b01#2 ∨ opField w = 0b10#2 ∨ opField w = 0b11#2 := by
  generalize opField w = op
  revert op
  decide

theorem decode_eq_reserved_iff (w : CmdWord) : decode w = .reserved (operandBits w) ↔ opField w = 0b00#2 := by
  rcases opField_cases w with h | h | h | h <;> simp [decode, h]

theorem decode_eq_clear_iff (w : CmdWord) : decode w = .clear (operandBits w) ↔ opField w = 0b01#2 := by
  rcases opField_cases w with h | h | h | h <;> simp [decode, h]

theorem decode_eq_set_iff (w : CmdWord) :
    decode w = .set (idxField w) (redField w) (greenField w) (blueField w) ↔ opField w = 0b10#2 := by
  rcases opField_cases w with h | h | h | h <;> simp [decode, h]

theorem decode_eq_transmit_iff (w : CmdWord) : decode w = .transmit (operandBits w) ↔ opField w = 0b11#2 := by
  rcases opField_cases w with h | h | h | h <;> simp [decode, h]

/-! ### The mask of `op` -/

/-- The mask of R76 keeps the bits of `op` and clears those below. -/
theorem and_opMask (w : CmdWord) : w &&& 0x30000000000#42 = wordOf (opField w) 0#40 := by
  have hmask : ∀ i < 42, (0x30000000000#42).getLsbD i = decide (40 ≤ i) := by decide
  apply BitVec.eq_of_getLsbD_eq
  intro i hi
  rw [BitVec.getLsbD_and, hmask i hi]
  by_cases h : i < 40
  · simp [wordOf, h]
  · have hop : i - 40 < 2 := by omega
    have hi40 : 40 + (i - 40) = i := by omega
    have h40 : 40 ≤ i := by omega
    simp [wordOf, opField, hi, h40, hop, hi40]

/-- The match of a row of R76: under the mask, a word is the row's `op` with zeros below it. -/
theorem and_opMask_eq_iff (w : CmdWord) (op : BitVec 2) :
    w &&& 0x30000000000#42 = wordOf op 0#40 ↔ opField w = op := by
  rw [and_opMask]
  refine ⟨fun h => ?_, fun h => by rw [h]⟩
  have hop : opField (wordOf (opField w) 0#40) = opField (wordOf op 0#40) := congrArg opField h
  rwa [Laws.opField_wordOf, Laws.opField_wordOf] at hop

/-! ### The settled statement -/

/-- Settles O4: both sides of each row say which value `op` has. -/
theorem opcodeMapByMask : Obligations.OpcodeMapByMask := fun w =>
  ⟨(and_opMask_eq_iff w 0b00#2).trans (decode_eq_reserved_iff w).symm,
    (and_opMask_eq_iff w 0b01#2).trans (decode_eq_clear_iff w).symm,
    (and_opMask_eq_iff w 0b10#2).trans (decode_eq_set_iff w).symm,
    (and_opMask_eq_iff w 0b11#2).trans (decode_eq_transmit_iff w).symm⟩

end Sys2Proof
end

section
/-! The bits a command ignores (R79), and that no operation and no edge reads the listed inputs but for the oscillator's
answer (R36): with other inputs listed, it does the same and leaves those listed. -/

namespace Sys2Proof.Machine

/-! ### Ignored bits -/

/-- Words of `CLEAR` and words of `TRANSMIT` have one canonical operation each. -/
theorem canonical_decode_eq {w v : CmdWord} (hop : opField w = opField v)
    (hw : opField w = 0b01#2 ∨ opField w = 0b11#2) : canonical (decode w) = canonical (decode v) := by
  rcases hw with h | h
  · rw [(decode_eq_clear_iff w).mpr h, (decode_eq_clear_iff v).mpr (hop ▸ h)]
    rfl
  · rw [(decode_eq_transmit_iff w).mpr h, (decode_eq_transmit_iff v).mpr (hop ▸ h)]
    rfl

theorem exec_canonical (i : Instr) : exec (canonical i) = exec i := by cases i <;> rfl

theorem resume_canonical (i : Instr) : resume (canonical i) = resume i := by cases i <;> rfl

theorem accept_canonical (i : Instr) : accept (canonical i) = accept i := by cases i <;> rfl

/-! ### The same state with other inputs listed -/

/-- The state with other inputs listed for the steps to come (R36). -/
def State.withEnv (s : State) (e : List Input) : State := { s with env := e }

theorem andThen_assoc (o : Host.Outcome State Fault Refusal) (f g : State → Host.Outcome State Fault Refusal) :
    andThen (andThen o f) g = andThen o (fun s => andThen (f s) g) := by
  cases o <;> rfl

section
variable (s : State) (e : List Input)

@[simp] theorem State.withEnv_par : (s.withEnv e).par = s.par := rfl
@[simp] theorem State.withEnv_seq : (s.withEnv e).seq = s.seq := rfl
@[simp] theorem State.withEnv_byteIdx : (s.withEnv e).byteIdx = s.byteIdx := rfl
@[simp] theorem State.withEnv_bitIdx : (s.withEnv e).bitIdx = s.bitIdx := rfl
@[simp] theorem State.withEnv_curBit : (s.withEnv e).curBit = s.curBit := rfl
@[simp] theorem State.withEnv_cnt : (s.withEnv e).cnt = s.cnt := rfl
@[simp] theorem State.withEnv_retryCnt : (s.withEnv e).retryCnt = s.retryCnt := rfl
@[simp] theorem State.withEnv_readFb (k : Nat) : (s.withEnv e).readFb k = s.readFb k := rfl

/-! ### No command reads the listed inputs -/

theorem State.whenReady_withEnv (t : State) :
    (s.withEnv e).whenReady (t.withEnv e) = (s.whenReady t).withEnv e := by
  by_cases h : s.seq = .idle <;> simp [State.whenReady, h]

theorem State.clearFb_withEnv : (s.withEnv e).clearFb = s.clearFb.withEnv e :=
  List.foldl_hom (fun t => State.withEnv t e) (fun _ _ => rfl)

theorem State.setLed_withEnv (idx : IndexField) (r g b : Byte) :
    (s.withEnv e).setLed idx r g b = (s.setLed idx r g b).withEnv e := by
  simp only [State.setLed, State.withEnv_par]
  cases indexRange s.par.n idx <;> rfl

theorem State.sendByte_withEnv (v : Byte) : (s.withEnv e).sendByte v = (s.sendByte v).withEnv e :=
  List.foldl_hom (fun t => State.withEnv t e) (fun _ _ => rfl)

theorem State.sendBytes_withEnv : (s.withEnv e).sendBytes = s.sendBytes.withEnv e :=
  List.foldl_hom (fun t => State.withEnv t e) (fun t k => t.sendByte_withEnv e (t.fbByte k))

theorem State.transmit_withEnv : (s.withEnv e).transmit = s.transmit.withEnv e := by
  rw [State.transmit, State.sendBytes_withEnv]
  rfl

/-! ### No rule of the sequencer reads them -/

theorem State.clkSettle_withEnv : (s.withEnv e).clkSettle = s.clkSettle.withEnv e := by
  by_cases h : 0 < s.cnt <;> simp [State.clkSettle, h] <;> rfl

theorem State.clkIterate_withEnv (draw : Bool) :
    (s.withEnv e).clkIterate draw = (s.clkIterate draw).withEnv e := by
  cases draw with
  | false => rfl
  | true =>
    cases h : boundUsedUp s.par.maxRetry (s.retryCnt + 1) <;> simp [State.clkIterate, h] <;> rfl

theorem State.record_withEnv (phase : Nat) : (s.withEnv e).record phase = (s.record phase).withEnv e := rfl

theorem State.edgeHigh_withEnv : (s.withEnv e).edgeHigh = s.edgeHigh.withEnv e := by
  by_cases h : 0 < s.cnt <;> simp [State.edgeHigh, State.record_withEnv, h] <;> rfl

theorem State.edgeLatch_withEnv : (s.withEnv e).edgeLatch = s.edgeLatch.withEnv e := by
  by_cases h : 0 < s.cnt <;> simp [State.edgeLatch, State.record_withEnv, h] <;> rfl

theorem State.beginSymbol_withEnv (k : Nat) (j : BitVec 3) :
    (s.withEnv e).beginSymbol k j = andThen (s.beginSymbol k j) (fun t => .next (t.withEnv e)) := by
  simp only [State.beginSymbol, State.withEnv_readFb]
  cases s.readFb k <;> rfl

theorem State.nextSymbol_withEnv :
    (s.withEnv e).nextSymbol = andThen s.nextSymbol (fun t => .next (t.withEnv e)) := by
  by_cases hbit : 0#3 < s.bitIdx
  · simp only [State.nextSymbol, State.withEnv_bitIdx, hbit, if_true]
    exact s.beginSymbol_withEnv e _ _
  · simp only [State.nextSymbol, State.withEnv_bitIdx, State.withEnv_byteIdx, State.withEnv_par, hbit, if_false]
    by_cases hbyte : s.byteIdx < s.par.fbLen - 1
    · simp only [hbyte, if_true]
      exact s.beginSymbol_withEnv e _ _
    · simp only [hbyte, if_false]
      rfl

theorem State.edgeLow_withEnv :
    (s.withEnv e).edgeLow = andThen s.edgeLow (fun t => .next (t.withEnv e)) := by
  simp only [State.edgeLow, State.record_withEnv, State.withEnv_cnt, State.record_cnt]
  by_cases h : 0 < s.cnt
  · simp only [h, if_true]
    rfl
  · simp only [h, if_false]
    exact ((s.record (lowCycles s.curBit)).sym (bitSymbol s.curBit)).nextSymbol_withEnv e

theorem resume_withEnv (i : Instr) :
    resume i (s.withEnv e) = andThen (resume i s) (fun t => .next (t.withEnv e)) := by
  cases i with
  | bit0 => exact s.nextSymbol_withEnv e
  | bit1 => exact s.nextSymbol_withEnv e
  | _ => rfl

theorem accept_withEnv (i : Instr) :
    accept i (s.withEnv e) = andThen (accept i s) (fun t => .next (t.withEnv e)) := by
  cases i with
  | clear ignored =>
    rw [accept, State.clearFb_withEnv]
    rfl
  | set idx r g b =>
    rw [accept, State.setLed_withEnv]
    rfl
  | transmit ignored => exact s.beginSymbol_withEnv e 0 7#3
  | _ => rfl

end

section
variable {s : State} {e : List Input}

/-! ### What reads the oscillator's answer -/

theorem execClkcfg_withEnv (hosc : (s.withEnv e).input.oscFaultSet = s.input.oscFaultSet) :
    execClkcfg (s.withEnv e) = andThen (execClkcfg s) (fun t => .next (t.withEnv e)) := by
  simp only [execClkcfg, State.withEnv_seq, hosc, andThen_next]
  cases s.seq with
  | cfgSettle => exact congrArg _ (s.clkSettle_withEnv e)
  | cfgFclr => exact congrArg _ (s.clkIterate_withEnv e _)
  | _ => rfl

theorem exec_withEnv (hosc : (s.withEnv e).input.oscFaultSet = s.input.oscFaultSet) (i : Instr) :
    exec i (s.withEnv e) = andThen (exec i s) (fun t => .next (t.withEnv e)) := by
  cases i with
  | clkcfg => exact execClkcfg_withEnv hosc
  | reserved rest => exact congrArg _ (s.whenReady_withEnv e (s.illegal rest))
  | clear ignored => simp only [exec_clear, State.clearFb_withEnv, State.whenReady_withEnv, andThen_next]
  | set idx r g b => simp only [exec_set, State.setLed_withEnv, State.whenReady_withEnv, andThen_next]
  | transmit ignored =>
    simp only [exec, execTransmit, State.transmit_withEnv, State.whenReady_withEnv, andThen_next]
  | _ => rfl

theorem sequencerEdge_withEnv (hosc : (s.withEnv e).input.oscFaultSet = s.input.oscFaultSet) :
    sequencerEdge (s.withEnv e) = andThen (sequencerEdge s) (fun t => .next (t.withEnv e)) := by
  simp only [sequencerEdge, State.withEnv_seq, execClkcfg_withEnv hosc, State.edgeHigh_withEnv,
    State.edgeLow_withEnv, State.edgeLatch_withEnv]
  cases s.seq <;> rfl

/-! ### Steps and edges -/

/-- Where the canonical operations agree, either no operation is selected, or two that only ignored bits tell apart. -/
theorem map_canonical_cases {o' o : Option Instr} (h : o'.map canonical = o.map canonical) :
    (o' = none ∧ o = none) ∨ ∃ i' i, o' = some i' ∧ o = some i ∧ canonical i' = canonical i := by
  cases o with
  | none => exact .inl ⟨Option.map_eq_none_iff.mp h, rfl⟩
  | some i =>
    obtain ⟨i', ho', hi⟩ := Option.map_eq_some_iff.mp h
    exact .inr ⟨i', i, ho', rfl, hi⟩

theorem stepBody_withEnv (hosc : (s.withEnv e).input.oscFaultSet = s.input.oscFaultSet)
    (hcur : (s.withEnv e).current.map canonical = s.current.map canonical) :
    stepBody (s.withEnv e) = andThen (stepBody s) (fun t => .next (t.withEnv e)) := by
  unfold stepBody
  obtain ⟨h', h⟩ | ⟨i', i, h', h, hi⟩ := map_canonical_cases hcur
  · rw [h', h]
    exact sequencerEdge_withEnv hosc
  · rw [h', h]
    simp only
    rw [← exec_canonical i', ← resume_canonical i', hi, exec_canonical, resume_canonical, exec_withEnv hosc]
    simp only [andThen_assoc, andThen_next, resume_withEnv]

theorem edgeBody_withEnv (hosc : (s.withEnv e).input.oscFaultSet = s.input.oscFaultSet)
    (hacc : (s.withEnv e).accepted.map canonical = s.accepted.map canonical) :
    edgeBody (s.withEnv e) = andThen (edgeBody s) (fun t => .next (t.withEnv e)) := by
  unfold edgeBody
  obtain ⟨h', h⟩ | ⟨i', i, h', h, hi⟩ := map_canonical_cases hacc
  · rw [h', h]
    exact sequencerEdge_withEnv hosc
  · rw [h', h]
    simp only
    rw [← accept_canonical i', hi, accept_canonical]
    exact accept_withEnv s e i

/-- The inputs `e` show on the ports in this step what the listed ones show, but for the command word, and the step
ends with the same inputs and the same program to come. -/
structure State.AgreesOffCommand (s : State) (e : List Input) : Prop where
  rstN : (s.withEnv e).input.rstN = s.input.rstN
  oscFaultSet : (s.withEnv e).input.oscFaultSet = s.input.oscFaultSet
  tail : e.tail = s.env.tail
  progAfter : (s.withEnv e).progAfter = s.progAfter

/-- Sampling takes the listed inputs away, so it does not matter which of the two lists stood there. -/
theorem State.sample_withEnv (h : s.AgreesOffCommand e) (t : State) :
    (t.withEnv e).sample (s.withEnv e) = t.sample s := by
  unfold State.sample
  rw [h.oscFaultSet, h.progAfter, ← h.tail]
  rfl

theorem State.takeReset_withEnv (h : s.AgreesOffCommand e) : (s.withEnv e).takeReset = s.takeReset := by
  unfold State.takeReset
  rw [← h.tail]
  rfl

/-- Two offers that select the same operation, but for the bits it ignores, give the same step. -/
theorem step_withEnv (h : s.AgreesOffCommand e)
    (hcur : (s.withEnv e).current.map canonical = s.current.map canonical) : step (s.withEnv e) = step s := by
  unfold step
  rw [h.rstN, stepBody_withEnv h.oscFaultSet hcur, State.takeReset_withEnv h, andThen_assoc]
  simp only [andThen_next, State.sample_withEnv h]

/-- Two offers of which the same operation is accepted, but for the bits it ignores, give the same edge. -/
theorem edge_withEnv (h : s.AgreesOffCommand e)
    (hacc : (s.withEnv e).accepted.map canonical = s.accepted.map canonical) : edge (s.withEnv e) = edge s := by
  unfold edge
  rw [h.rstN, edgeBody_withEnv h.oscFaultSet hacc, State.takeReset_withEnv h, andThen_assoc]
  simp only [andThen_next, State.sample_withEnv h]

/-! ### A listed word -/

/-- The operation is the one of the word on the port where the core is ready, and does not depend on it elsewhere. -/
theorem State.current_withEnv_canonical
    (hcmd : ((s.withEnv e).input.cmd.map decode).map canonical = (s.input.cmd.map decode).map canonical) :
    (s.withEnv e).current.map canonical = s.current.map canonical := by
  unfold State.current
  rw [State.withEnv_seq]
  cases s.seq with
  | idle => exact hcmd
  | _ => rfl

theorem State.accepted_withEnv_canonical
    (hcmd : ((s.withEnv e).input.cmd.map decode).map canonical = (s.input.cmd.map decode).map canonical) :
    (s.withEnv e).accepted.map canonical = s.accepted.map canonical := by
  unfold State.accepted
  rw [State.withEnv_seq]
  by_cases h : s.seq = .idle
  · simpa only [h, if_true] using hcmd
  · simp only [h, if_false]

end

/-- A word listed for this step keeps the program's first word waiting. -/
theorem State.progAfter_cons_some (s : State) (rest : List Input) (w : CmdWord) (osc : Bool) :
    ({ s with env := ⟨true, some w, osc⟩ :: rest } : State).progAfter = s.prog :=
  State.progAfter_of_listed (w := w) rfl

/-- One word listed in the place of another is the only difference. -/
theorem State.agreesOffCommand_cons (s : State) (rest : List Input) (w v : CmdWord) (osc : Bool) :
    ({ s with env := ⟨true, some w, osc⟩ :: rest } : State).AgreesOffCommand (⟨true, some v, osc⟩ :: rest) where
  rstN := rfl
  oscFaultSet := rfl
  tail := rfl
  progAfter := (s.progAfter_cons_some rest v osc).trans (s.progAfter_cons_some rest w osc).symm

/-! ### The settled statement -/

/-- Settles O5: the two words have one canonical operation, so either selects the same step and the same edge. -/
theorem ignoredFieldsHaveNoEffect : Obligations.IgnoredFieldsHaveNoEffect := by
  refine ⟨by decide, by decide, fun s rest w v osc hop hw => ?_⟩
  have hports := s.agreesOffCommand_cons rest v w osc
  have hcmd := congrArg some (canonical_decode_eq hop hw)
  exact ⟨step_withEnv hports (State.current_withEnv_canonical hcmd),
    edge_withEnv hports (State.accepted_withEnv_canonical hcmd)⟩

end Sys2Proof.Machine
end

section
/-! `CLKCFG` by the state of the sequencer (R91, R93, R94, R99), its frame (R97), and runs of the core through the settle
wait (R93). -/

namespace Sys2Proof.Machine

/-! ### The step of `CLKCFG` that `SEQ` selects -/

section
variable {s t : State}

theorem exec_clkcfg_of_cfgWrite (h : s.seq = .cfgWrite) : exec .clkcfg s = .next s.clkWrite := by
  simp only [exec, execClkcfg, h]

theorem exec_clkcfg_of_cfgSettle (h : s.seq = .cfgSettle) : exec .clkcfg s = .next s.clkSettle := by
  simp only [exec, execClkcfg, h]

theorem exec_clkcfg_of_cfgFclr (h : s.seq = .cfgFclr) :
    exec .clkcfg s = .next (s.clkIterate s.input.oscFaultSet) := by
  simp only [exec, execClkcfg, h]

/-- Outside the states of its three steps `CLKCFG` has no effect (R95b, R99). -/
theorem exec_clkcfg_of_over (hw : s.seq ≠ .cfgWrite) (hs : s.seq ≠ .cfgSettle) (hf : s.seq ≠ .cfgFclr) :
    exec .clkcfg s = .next s := by
  cases h : s.seq with
  | cfgWrite => exact absurd h hw
  | cfgSettle => exact absurd h hs
  | cfgFclr => exact absurd h hf
  | _ => simp only [exec, execClkcfg, h]

/-- `CLKCFG` does one of its three steps, or nothing. -/
theorem exec_clkcfg_cases (h : exec .clkcfg s = .next t) :
    (s.seq = .cfgWrite ∧ t = s.clkWrite) ∨ (s.seq = .cfgSettle ∧ t = s.clkSettle) ∨
      (s.seq = .cfgFclr ∧ t = s.clkIterate s.input.oscFaultSet) ∨ t = s := by
  by_cases hw : s.seq = .cfgWrite
  · rw [exec_clkcfg_of_cfgWrite hw] at h
    exact .inl ⟨hw, (Host.Outcome.next.inj h).symm⟩
  by_cases hs : s.seq = .cfgSettle
  · rw [exec_clkcfg_of_cfgSettle hs] at h
    exact .inr (.inl ⟨hs, (Host.Outcome.next.inj h).symm⟩)
  by_cases hf : s.seq = .cfgFclr
  · rw [exec_clkcfg_of_cfgFclr hf] at h
    exact .inr (.inr (.inl ⟨hf, (Host.Outcome.next.inj h).symm⟩))
  · rw [exec_clkcfg_of_over hw hs hf] at h
    exact .inr (.inr (.inr (Host.Outcome.next.inj h).symm))

end

/-! ### What each step writes -/

/-- A cycle of the settle wait writes `CNT` and `SEQ` only; a `CNT` of 0 stays 0 (R93). -/
theorem State.clkSettle_eq (s : State) :
    s.clkSettle = { s with cnt := s.cnt - 1, seq := if 0 < s.cnt then s.seq else .cfgFclr } := by
  unfold State.clkSettle
  split_ifs with h
  · rfl
  · have h0 : s.cnt - 1 = s.cnt := by omega
    rw [h0]

theorem State.clkSettle_of_pos {s : State} (h : 0 < s.cnt) : s.clkSettle = { s with cnt := s.cnt - 1 } := if_pos h

theorem State.clkSettle_of_zero {s : State} (h : s.cnt = 0) : s.clkSettle = { s with seq := .cfgFclr } := by
  simp [State.clkSettle, h]

/-- An iteration of the fault-clearing loop writes `OSC_FAULT`, `RETRY_CNT`, `ERR` and `SEQ` only (R94). -/
theorem State.clkIterate_eq (s : State) (draw : Bool) :
    s.clkIterate draw =
      { s with
        oscFault := draw
        retryCnt := (s.clkIterate draw).retryCnt
        err := (s.clkIterate draw).err
        seq := (s.clkIterate draw).seq } := by
  rcases s.clkIterate_cases draw with ⟨rfl, e⟩ | ⟨rfl, -, e⟩ | ⟨rfl, -, e⟩ <;> rw [e]

/-- An iteration writes `ERR` only where it ends in `CFG_FAILED` (R95). -/
theorem State.clkIterate_err {s : State} {draw : Bool} (h : (s.clkIterate draw).seq ≠ .cfgFailed) :
    (s.clkIterate draw).err = s.err := by
  rcases s.clkIterate_cases draw with ⟨-, e⟩ | ⟨-, -, e⟩ | ⟨-, -, e⟩
  · rw [e]
  · rw [e]
  · exact absurd (by rw [e]) h

/-! ### The frame of `CLKCFG` -/

section
variable {s t : State}

/-- `CLKCFG` writes at most the clock registers, `OSC_FAULT`, `RETRY_CNT`, `SEQ`, `CNT` and `ERR` (R97). -/
theorem exec_clkcfg_frame (h : exec .clkcfg s = .next t) :
    ∃ src div osc retries q c e,
      t =
        { s with
          clkSrc := src
          clkDiv := div
          oscFault := osc
          retryCnt := retries
          seq := q
          cnt := c
          err := e } := by
  rcases exec_clkcfg_cases h with ⟨-, rfl⟩ | ⟨-, rfl⟩ | ⟨-, rfl⟩ | rfl
  · exact ⟨_, _, _, _, _, _, _, rfl⟩
  · exact ⟨_, _, _, _, _, _, _, s.clkSettle_eq⟩
  · exact ⟨_, _, _, _, _, _, _, s.clkIterate_eq _⟩
  · exact ⟨_, _, _, _, _, _, _, rfl⟩

theorem exec_clkcfg_cnt (h : exec .clkcfg s = .next t) (hw : s.seq ≠ .cfgWrite) (hs : s.seq ≠ .cfgSettle) :
    t.cnt = s.cnt := by
  rcases exec_clkcfg_cases h with ⟨e, -⟩ | ⟨e, -⟩ | ⟨-, rfl⟩ | rfl
  · exact absurd e hw
  · exact absurd e hs
  · rw [State.clkIterate_eq]
  · rfl

theorem exec_clkcfg_oscFault (h : exec .clkcfg s = .next t) (hw : s.seq ≠ .cfgWrite) (hf : s.seq ≠ .cfgFclr) :
    t.oscFault = s.oscFault := by
  rcases exec_clkcfg_cases h with ⟨e, -⟩ | ⟨-, rfl⟩ | ⟨e, -⟩ | rfl
  · exact absurd e hw
  · rw [State.clkSettle_eq]
  · exact absurd e hf
  · rfl

theorem exec_clkcfg_err (h : exec .clkcfg s = .next t) (ht : t.seq ≠ .cfgFailed) : t.err = s.err := by
  rcases exec_clkcfg_cases h with ⟨-, rfl⟩ | ⟨-, rfl⟩ | ⟨-, rfl⟩ | rfl
  · rfl
  · rw [State.clkSettle_eq]
  · exact State.clkIterate_err ht
  · rfl

theorem exec_clkcfg_clockRegisters (h : exec .clkcfg s = .next t) (hw : s.seq ≠ .cfgWrite) :
    t.clkSrc = s.clkSrc ∧ t.clkDiv = s.clkDiv := by
  rcases exec_clkcfg_cases h with ⟨e, -⟩ | ⟨-, rfl⟩ | ⟨-, rfl⟩ | rfl
  · exact absurd e hw
  · rw [State.clkSettle_eq]
    exact ⟨rfl, rfl⟩
  · rw [State.clkIterate_eq]
    exact ⟨rfl, rfl⟩
  · exact ⟨rfl, rfl⟩

theorem exec_clkcfg_retryCnt (h : exec .clkcfg s = .next t) (hf : s.seq ≠ .cfgFclr) : t.retryCnt = s.retryCnt := by
  rcases exec_clkcfg_cases h with ⟨-, rfl⟩ | ⟨-, rfl⟩ | ⟨e, -⟩ | rfl
  · rfl
  · rw [State.clkSettle_eq]
  · exact absurd e hf
  · rfl

/-- Before the clock is stable the line is low: it is high in `TX_HIGH` only. -/
theorem Inv.dout_of_clkStable_eq_false (hi : Inv s) (hc : s.clkStable = false) : s.dout = false := by
  have hseq : s.seq ≠ .txHigh := fun h => by simp [State.clkState, clkStateOf, h] at hc
  exact Bool.eq_false_iff.mpr fun hd => hseq (hi.line.mp hd)

/-! ### Runs of the core -/

theorem run_succ (k : Nat) (s : State) :
    Host.Core.run core (k + 1) s = andThen (step s) (Host.Core.run core k) := by
  have hstep : core.step s = step s := rfl
  simp only [Host.Core.run, hstep]
  cases step s <;> rfl

/-- After `j` steps that answer, the next `k` go on from there. -/
theorem run_add {j : Nat} (h : Host.Core.run core j s = .next t) (k : Nat) :
    Host.Core.run core (j + k) s = Host.Core.run core k t := by
  induction j generalizing s with
  | zero =>
    obtain rfl := Host.Outcome.next.inj h
    rw [Nat.zero_add]
  | succ j ih =>
    rw [run_succ] at h
    obtain ⟨u, hu, ht⟩ := andThen_eq_next h
    rw [Nat.succ_add, run_succ, hu]
    exact ih ht

theorem run_one (s : State) : Host.Core.run core 1 s = step s := by
  rw [run_succ]
  cases step s <;> rfl

/-- One step more, at the end of a run that answers. -/
theorem run_succ_of_run {k : Nat} (h : Host.Core.run core k s = .next t) :
    Host.Core.run core (k + 1) s = step t :=
  (run_add h 1).trans (run_one t)

/-! ### The settle wait -/

/-- With reset released, a step in `CFG_SETTLE` is one cycle of the wait. -/
theorem step_of_cfgSettle (hseq : s.seq = .cfgSettle) (hr : s.released) :
    step s = .next (s.clkSettle.sample s) := by
  have hcur : s.current = some .clkcfg := by simp only [State.current, hseq]
  simp only [step, State.rstN_of_released hr, if_true, stepBody, hcur, exec_clkcfg_of_cfgSettle hseq, andThen_next,
    resume]

/-- The wait goes on while `CNT` lasts. -/
theorem run_cfgSettle {k : Nat} (hseq : s.seq = .cfgSettle) (hr : s.released) (hk : k ≤ s.cnt) :
    ∃ t : State, Host.Core.run core k s = .next t ∧ t.seq = .cfgSettle ∧ t.cnt = s.cnt - k ∧ t.released := by
  induction k with
  | zero => exact ⟨s, rfl, hseq, rfl, hr⟩
  | succ k ih =>
    obtain ⟨t, hrun, htseq, htcnt, htr⟩ := ih (by omega)
    have hpos : 0 < t.cnt := by omega
    refine ⟨t.clkSettle.sample t, (run_succ_of_run hrun).trans (step_of_cfgSettle htseq htr), ?_, ?_,
      State.released_sample htr _⟩
    · rw [State.sample_seq, State.clkSettle_of_pos hpos]
      exact htseq
    · rw [State.sample_cnt, State.clkSettle_of_pos hpos, ← Nat.sub_sub, ← htcnt]

/-- With `CNT` used up, the next step of the wait begins the fault-clearing loop. -/
theorem run_cfgSettle_to_cfgFclr (hseq : s.seq = .cfgSettle) (hr : s.released) :
    ∃ t : State, Host.Core.run core (s.cnt + 1) s = .next t ∧ t.seq = .cfgFclr := by
  obtain ⟨t, hrun, htseq, htcnt, htr⟩ := run_cfgSettle hseq hr le_rfl
  have hzero : t.cnt = 0 := htcnt.trans (Nat.sub_self _)
  refine ⟨t.clkSettle.sample t, (run_succ_of_run hrun).trans (step_of_cfgSettle htseq htr), ?_⟩
  rw [State.sample_seq, State.clkSettle_of_zero hzero]

end

/-! ### The settled statements -/

/-- Settles O16: one cycle is `State.clkSettle`; the wait goes on for `CNT` steps, and one more ends it. -/
theorem clkcfgSettleWait : Obligations.ClkcfgSettleWait := by
  refine ⟨fun s hseq => exec_clkcfg_of_cfgSettle hseq, fun s k hseq hr => ⟨fun hk => ?_, ?_⟩⟩
  · obtain ⟨t, hrun, htseq, htcnt, -⟩ := run_cfgSettle hseq hr hk
    exact ⟨t, hrun, htseq, htcnt⟩
  · exact run_cfgSettle_to_cfgFclr hseq hr

/-- Settles O15: in `CFG_WRITE` the operation is `State.clkWrite`, which is the record of R91. -/
theorem clkcfgWritesRegisters : Obligations.ClkcfgWritesRegisters := fun _ hseq => exec_clkcfg_of_cfgWrite hseq

/-- Settles O19: what no step writes is left by `exec_clkcfg_frame`; each conditional clause leaves out the steps that
write its field. -/
theorem clkcfgFrame : Obligations.ClkcfgFrame := by
  intro s t h
  have hcnt := exec_clkcfg_cnt h
  have hosc := exec_clkcfg_oscFault h
  have herr := exec_clkcfg_err h
  have hclk := exec_clkcfg_clockRegisters h
  have hretry := exec_clkcfg_retryCnt h
  obtain ⟨_, _, _, _, _, _, _, rfl⟩ := exec_clkcfg_frame h
  have hlow (hi : Inv s) (hc : s.clkStable = false) := hi.dout_of_clkStable_eq_false hc
  exact ⟨rfl, rfl, rfl, fun _ => rfl, rfl, rfl, rfl, rfl, rfl, rfl, rfl, rfl, rfl, hcnt, hosc, herr, hclk, hretry,
    fun hi hc => ⟨hlow hi hc, hlow hi hc⟩⟩

end Sys2Proof.Machine
end

section
/-! The pulse primitives as records of what they write (R105 to R108), and the durations that follow from the cycle
counts (R6). -/

namespace Sys2Proof.Machine

/-! ### What a primitive writes -/

theorem exec_bit0 (s : State) : exec .bit0 s = .next (s.pulseBit false) := rfl

theorem exec_bit1 (s : State) : exec .bit1 s = .next (s.pulseBit true) := rfl

theorem exec_reset (s : State) : exec .reset s = .next s.pulseLatch := rfl

/-- A bit symbol writes `WIRE`, `SYMS` and `DOUT` only, and leaves the line low (R105). -/
theorem State.pulseBit_eq (s : State) (c : Bool) :
    s.pulseBit c =
      { s with wire := s.wire ++ symbolSegments c, syms := s.syms ++ [bitSymbol c], dout := false } := by
  simpa using foldl_pulseBit_eq [c] s

/-- The latch period writes `WIRE`, `SYMS` and `DOUT` only, and leaves the line low (R105). -/
theorem State.pulseLatch_eq (s : State) :
    s.pulseLatch =
      { s with wire := s.wire ++ [⟨false, s.par.tResetCyc⟩], syms := s.syms ++ [.rst], dout := false } := rfl

/-! ### Durations and the meaning of adjacent segments -/

theorem cyclesToNs_mono : Monotone cyclesToNs := fun _ _ h => Nat.mul_le_mul_left _ h

theorem wireCycles_symbolSegments (c : Bool) : wireCycles (symbolSegments c) = highCycles c + lowCycles c := rfl

theorem Params.tResetMin_le_tResetCyc {p : Params} (h : p.wellFormed) : Config.tResetMin ≤ p.tResetCyc := by
  obtain ⟨-, -, hreset, -, -⟩ := h
  exact hreset

/-- The least latch period lasts exactly 1000 µs (D4). -/
theorem cyclesToNs_tResetMin : cyclesToNs Config.tResetMin = 1000000 := by decide

/-- Every build within R5's ranges holds the line low for the reset time of R111. -/
theorem Params.le_cyclesToNs_tResetCyc {p : Params} (h : p.wellFormed) :
    1000000 ≤ cyclesToNs p.tResetCyc :=
  cyclesToNs_tResetMin.symm.trans_le (cyclesToNs_mono (Params.tResetMin_le_tResetCyc h))

/-- Two adjacent segments of one level mean one of the summed length (R9). -/
theorem levels_cons_cons_same (l : Level) (a b : Nat) (w : List Segment) :
    levels (⟨l, a⟩ :: ⟨l, b⟩ :: w) = levels (⟨l, a + b⟩ :: w) := by
  simp only [levels, ← List.append_assoc, List.replicate_append_replicate]

/-! ### The settled statements -/

/-- Settles O25: `BIT0` is the bit symbol of 0, whose phases are `T0H_CYC` and `T0L_CYC`. -/
theorem bit0Waveform : Obligations.Bit0Waveform :=
  ⟨fun s => (exec_bit0 s).trans (congrArg _ (s.pulseBit_eq false)), wireCycles_symbolSegments false, rfl, rfl, rfl⟩

/-- Settles O26: `BIT1` is the bit symbol of 1, whose phases are `T1H_CYC` and `T1L_CYC`. -/
theorem bit1Waveform : Obligations.Bit1Waveform :=
  ⟨fun s => (exec_bit1 s).trans (congrArg _ (s.pulseBit_eq true)), wireCycles_symbolSegments true, rfl, rfl, rfl⟩

/-- Settles O27: the effect is `State.pulseLatch`, the bounds come from the range of `T_RESET_CYC`, and `TX_LATCH` is
not `IDLE`. -/
theorem resetLatchWaveform : Obligations.ResetLatchWaveform := by
  intro s
  have hbusy (hseq : s.seq = .txLatch) : s.busy = true := s.busy_iff.mpr (by simp [hseq])
  exact ⟨(exec_reset s).trans (congrArg _ s.pulseLatch_eq),
    fun h => ⟨Params.tResetMin_le_tResetCyc h, Params.le_cyclesToNs_tResetCyc h⟩, cyclesToNs_tResetMin,
    fun a b => levels_cons_cons_same false a b [], hbusy⟩

end Sys2Proof.Machine
end

section
/-! `TRANSMIT` as one record: the frame is the bytes of `FB` in offset order, each most significant bit first, and then
`RESET` (R116). -/

namespace Sys2Proof.Machine

/-! ### The bits of a frame, byte by byte -/

/-- A list of `8 * n` values is `n` groups of eight. -/
theorem map_range_eight_mul {α : Type} (f : Nat → α) (n : Nat) :
    (List.range (8 * n)).map f = (List.range n).flatMap fun k => (List.range 8).map fun j => f (8 * k + j) := by
  induction n with
  | zero => rfl
  | succ n ih =>
    rw [Nat.mul_succ, List.range_add, List.map_append, ih, List.range_succ (n := n), List.flatMap_append, List.map_map,
      List.flatMap_singleton]
    rfl

/-- The eight bits of the frame that byte `k` gives, in the order of R52. -/
theorem State.map_frameBit_byte (s : State) (k : Nat) :
    ((List.range 8).map fun j => s.frameBit (8 * k + j)) = wireBitOrder.map (s.fbByte k).getLsbD := by
  have hbit : ∀ j < 8, s.frameBit (8 * k + j) = (s.fbByte k).getLsbD (7 - j) := by
    intro j hj
    have hdiv : (8 * k + j) / 8 = k := by omega
    have hmod : (8 * k + j) % 8 = j := by omega
    rw [State.frameBit, hdiv, hmod]
  have horder : wireBitOrder = (List.range 8).map (7 - ·) := by decide
  rw [horder, List.map_map]
  exact List.map_congr_left fun j hj => hbit j (List.mem_range.mp hj)

theorem State.frameBits_eq_flatMap (s : State) :
    s.frameBits = (List.range s.par.fbLen).flatMap fun k => wireBitOrder.map (s.fbByte k).getLsbD := by
  have hlen : 24 * s.par.n = 8 * s.par.fbLen := by unfold Params.fbLen; omega
  rw [State.frameBits, hlen, map_range_eight_mul]
  simp only [State.map_frameBit_byte]

/-! ### Sending the bytes -/

/-- Sending a byte leaves `FB` readable as before, so a frame is sent from the bytes it began with. -/
theorem State.fbByte_sendByte (s : State) (v : Byte) (k : Nat) : (s.sendByte v).fbByte k = s.fbByte k := by
  rw [State.sendByte_eq]
  exact foldl_keeps (fun t => t.fbByte k) State.pulseBit (fun _ _ => rfl) _ s

theorem foldl_sendByte_eq (ks : List Nat) (s : State) :
    ks.foldl (fun t k => t.sendByte (t.fbByte k)) s =
      (ks.flatMap fun k => wireBitOrder.map (s.fbByte k).getLsbD).foldl State.pulseBit s := by
  induction ks generalizing s with
  | nil => rfl
  | cons k ks ih =>
    rw [List.foldl_cons, ih, List.flatMap_cons, List.foldl_append, ← State.sendByte_eq]
    simp only [State.fbByte_sendByte]

theorem State.sendBytes_eq (s : State) : s.sendBytes = s.frameBits.foldl State.pulseBit s := by
  rw [State.frameBits_eq_flatMap]
  exact foldl_sendByte_eq _ s

/-! ### The whole operation -/

/-- `TRANSMIT` writes the line, the histories, the working registers and `SEQ` only. -/
theorem State.transmit_eq (s : State) :
    s.transmit =
      { s with
        wire := s.wire ++ s.frameSegments
        syms := s.syms ++ s.frameSymbols
        dout := false
        byteIdx := s.par.fbLen - 1
        bitIdx := 0#3
        curBit := (s.fbByte (s.par.fbLen - 1)).getLsbD 0
        cnt := 0
        seq := .idle } := by
  simp only [State.transmit, State.sendBytes_eq, foldl_pulseBit_eq, State.pulseLatch_eq, State.parkRegisters,
    State.frameSegments, State.frameSymbols, List.append_assoc]
  rfl

theorem exec_transmit (ignored : Operands) (s : State) :
    exec (.transmit ignored) s = .next (s.whenReady s.transmit) := rfl

theorem exec_transmit_of_idle {s : State} (h : s.seq = .idle) (ignored : Operands) :
    exec (.transmit ignored) s = .next s.transmit := by
  rw [exec_transmit, State.whenReady_of_idle h]

/-- While the core is not ready an offered command is held (R73). -/
theorem State.whenReady_of_not_idle {s : State} (h : s.seq ≠ .idle) (t : State) : s.whenReady t = s := if_neg h

/-- A core that waits for a command holds the line low. -/
theorem Inv.dout_of_idle {s : State} (hi : Inv s) (h : s.seq = .idle) : s.dout = false :=
  Bool.eq_false_iff.mpr fun hd => absurd (h.symm.trans (hi.line.mp hd)) (by decide)

/-! ### The settled statement -/

/-- Settles O30: at `IDLE` the effect is the record of `State.transmit_eq`, which writes `SEQ` with the `IDLE` it holds
already. -/
theorem transmitSendsFrame : Obligations.TransmitSendsFrame := by
  refine fun s ignored => ⟨fun h => ?_, fun h => ?_, fun h => ⟨?_, fun hi => hi.dout_of_idle h⟩⟩
  · refine ⟨s.transmit, exec_transmit_of_idle h ignored, ?_⟩
    rw [State.transmit_eq, ← h]
    exact ⟨rfl, rfl, rfl, rfl, (State.cmdReady_iff _).mpr h, fun _ => rfl, rfl⟩
  · rw [exec_transmit, State.whenReady_of_not_idle h]
  · rw [State.clkStable_iff, State.clkState_eq_stable_iff]
    exact .inl h

end Sys2Proof.Machine
end

section
/-! The sequencer edge by edge through a transmission (R124 to R126): what an edge of each phase does, and that none of
them writes the frame buffer (R118). -/

namespace Sys2Proof.Machine

/-! ### An edge of each phase -/

/-- A cycle of the high phase: one fewer to come, or the falling edge (R124). -/
theorem State.edgeHigh_cases (s : State) :
    (0 < s.cnt ∧ s.edgeHigh = { s.record (highCycles s.curBit) with cnt := s.cnt - 1 }) ∨
      (s.cnt = 0 ∧
        s.edgeHigh =
          { s.record (highCycles s.curBit) with dout := false, cnt := lowCycles s.curBit - 1, seq := .txLow }) := by
  rcases Nat.eq_zero_or_pos s.cnt with h | h
  · exact .inr ⟨h, by simp [State.edgeHigh, h]⟩
  · exact .inl ⟨h, by simp [State.edgeHigh, h]⟩

/-- A cycle of the low phase: one fewer to come, or the symbol is complete and the advance follows (R125). -/
theorem State.edgeLow_cases (s : State) :
    (0 < s.cnt ∧ s.edgeLow = .next { s.record (lowCycles s.curBit) with cnt := s.cnt - 1 }) ∨
      (s.cnt = 0 ∧ s.edgeLow = ((s.record (lowCycles s.curBit)).sym (bitSymbol s.curBit)).nextSymbol) := by
  rcases Nat.eq_zero_or_pos s.cnt with h | h
  · exact .inr ⟨h, by simp [State.edgeLow, h]⟩
  · exact .inl ⟨h, by simp [State.edgeLow, h]⟩

/-- A cycle of the latch period: one fewer to come, or the frame is complete (R126). -/
theorem State.edgeLatch_cases (s : State) :
    (0 < s.cnt ∧ s.edgeLatch = { s.record s.par.tResetCyc with cnt := s.cnt - 1 }) ∨
      (s.cnt = 0 ∧ s.edgeLatch = { (s.record s.par.tResetCyc).sym .rst with seq := .idle }) := by
  rcases Nat.eq_zero_or_pos s.cnt with h | h
  · exact .inr ⟨h, by simp [State.edgeLatch, h]⟩
  · exact .inl ⟨h, by simp [State.edgeLatch, h]⟩

/-! ### The frame buffer during a transmission -/

/-- `t` goes on with the transmission in progress in `s`, or has ended it, with the frame buffer and the draws behind it
as they were. -/
structure State.ContinuesFrame (s t : State) : Prop where
  fb : t.fb = s.fb
  resets : t.resets = s.resets
  seq : t.seq.transmitting = true ∨ t.seq = .idle

section
variable {s t : State}

theorem State.continuesFrame_of_nextSymbol (h : s.nextSymbol = .next t) : s.ContinuesFrame t := by
  rcases s.nextSymbol_cases with ⟨-, e⟩ | ⟨-, -, e⟩ | ⟨-, -, e⟩
  · obtain ⟨-, rfl⟩ := State.beginSymbol_eq_next (e.symm.trans h)
    exact ⟨rfl, rfl, .inl rfl⟩
  · obtain ⟨-, rfl⟩ := State.beginSymbol_eq_next (e.symm.trans h)
    exact ⟨rfl, rfl, .inl rfl⟩
  · obtain rfl := Host.Outcome.next.inj (e.symm.trans h)
    exact ⟨rfl, rfl, .inl rfl⟩

theorem State.continuesFrame_edgeHigh (hs : s.seq.transmitting = true) : s.ContinuesFrame s.edgeHigh := by
  rcases s.edgeHigh_cases with ⟨-, e⟩ | ⟨-, e⟩ <;> rw [e]
  · exact ⟨rfl, rfl, .inl hs⟩
  · exact ⟨rfl, rfl, .inl rfl⟩

theorem State.continuesFrame_of_edgeLow (hs : s.seq.transmitting = true) (h : s.edgeLow = .next t) :
    s.ContinuesFrame t := by
  rcases s.edgeLow_cases with ⟨-, e⟩ | ⟨-, e⟩
  · obtain rfl := Host.Outcome.next.inj (e.symm.trans h)
    exact ⟨rfl, rfl, .inl hs⟩
  · obtain ⟨hfb, hresets, hseq⟩ := State.continuesFrame_of_nextSymbol (e.symm.trans h)
    exact ⟨hfb, hresets, hseq⟩

theorem State.continuesFrame_edgeLatch (hs : s.seq.transmitting = true) : s.ContinuesFrame s.edgeLatch := by
  rcases s.edgeLatch_cases with ⟨-, e⟩ | ⟨-, e⟩ <;> rw [e]
  · exact ⟨rfl, rfl, .inl hs⟩
  · exact ⟨rfl, rfl, .inr rfl⟩

/-- Only the three states of R173(a) count as transmitting, so only their rows of R127 matter. -/
theorem State.continuesFrame_of_sequencerEdge (hs : s.seq.transmitting = true) (h : sequencerEdge s = .next t) :
    s.ContinuesFrame t := by
  unfold sequencerEdge at h
  cases hseq : s.seq with
  | txHigh =>
    rw [hseq] at h
    exact Host.Outcome.next.inj h ▸ State.continuesFrame_edgeHigh hs
  | txLow =>
    rw [hseq] at h
    exact State.continuesFrame_of_edgeLow hs h
  | txLatch =>
    rw [hseq] at h
    exact Host.Outcome.next.inj h ▸ State.continuesFrame_edgeLatch hs
  | _ => simp [hseq, Seq.transmitting] at hs

/-- Off `IDLE` no command is accepted (R73). -/
theorem State.accepted_of_not_idle (h : s.seq ≠ .idle) : s.accepted = none := if_neg h

theorem edgeBody_of_not_accepted (h : s.accepted = none) : edgeBody s = sequencerEdge s := by
  rw [edgeBody, h]

/-- A core that transmits is not ready for a command. -/
theorem State.not_idle_of_transmitting (h : s.seq.transmitting = true) : s.seq ≠ .idle :=
  fun e => absurd (e ▸ h) (by decide)

end

/-! ### The settled statement -/

/-- Settles O47: a core that transmits accepts nothing, so the edge is the sequencer's own, and sampling the inputs
leaves `FB` and `SEQ` alone. -/
theorem bufferConstantDuringTransmission : Obligations.BufferConstantDuringTransmission := by
  intro s t hs hr h
  have hacc : s.accepted = none := State.accepted_of_not_idle (State.not_idle_of_transmitting hs)
  rcases edge_eq_next h with ⟨hr', -⟩ | ⟨-, u, hu, rfl⟩
  · exact absurd (hr.symm.trans hr') (by decide)
  · rw [edgeBody_of_not_accepted hacc] at hu
    obtain ⟨hfb, hresets, hseq⟩ := State.continuesFrame_of_sequencerEdge hs hu
    exact ⟨hacc, hfb, State.fbByte_congr hfb hresets, hseq⟩

end Sys2Proof.Machine
end

section
/-! The frames of `CLEAR` and `SET` (R136, R138): which bytes of `FB` each writes, and that it writes no other field
but `ERR` for an index out of range. -/

namespace Sys2Proof.Machine

/-! ### `CLEAR` -/

theorem exec_clear_of_idle {s : State} (h : s.seq = .idle) (ignored : Operands) :
    exec (.clear ignored) s = .next s.clearFb := by
  rw [exec_clear, State.whenReady_of_idle h]

theorem exec_clear_of_not_idle {s : State} (h : s.seq ≠ .idle) (ignored : Operands) :
    exec (.clear ignored) s = .next s := by
  rw [exec_clear, State.whenReady_of_not_idle h]

theorem State.clearFb_frame (s : State) : s.clearFb = { s with fb := s.clearFb.fb } := by
  rw [State.clearFb_eq]

/-! ### `SET` -/

theorem exec_set_of_idle {s : State} (h : s.seq = .idle) (idx : IndexField) (r g b : Byte) :
    exec (.set idx r g b) s = .next (s.setLed idx r g b) := by
  rw [exec_set, State.whenReady_of_idle h]

/-- The three bytes of a stored colour, one by one. -/
theorem State.fbByte_storeColor (s : State) (led : Nat) (r g b : Byte) :
    (s.storeColor led r g b).fbByte (3 * led) = g ∧ (s.storeColor led r g b).fbByte (3 * led + 1) = r ∧
      (s.storeColor led r g b).fbByte (3 * led + 2) = b := by
  simpa [State.colorEntry, baseOffset] using s.colorEntry_storeColor led r g b

/-- Storing a colour leaves the bytes of every other LED. -/
theorem State.fbByte_storeColor_other (s : State) {led k : Nat} (h : k < 3 * led ∨ 3 * led + 2 < k) (r g b : Byte) :
    (s.storeColor led r g b).fbByte k = s.fbByte k := by
  have h0 : k ≠ baseOffset led := by unfold baseOffset; omega
  have h1 : k ≠ baseOffset led + 1 := by unfold baseOffset; omega
  have h2 : k ≠ baseOffset led + 2 := by unfold baseOffset; omega
  rw [State.storeColor, State.fbByte_writeFb_other _ _ h2, State.fbByte_writeFb_other _ _ h1,
    State.fbByte_writeFb_other _ _ h0]

theorem State.storeColor_frame (s : State) (led : Nat) (r g b : Byte) :
    s.storeColor led r g b = { s with fb := (s.storeColor led r g b).fb } := rfl

/-- An index of at least `n`, read signed, is not negative, so its field read unsigned is the same number (R139). -/
theorem le_toNat_of_le_toInt {n : Nat} {idx : IndexField} (h : (n : Int) ≤ idx.toInt) : n ≤ idx.toNat := by
  have hs : idx.toInt = idx.toNat :=
    BitVec.toInt_eq_toNat_of_lt (BitVec.toInt_pos_iff.mp (n.cast_nonneg.trans h))
  omega

theorem State.setLed_of_tooLarge (s : State) {idx : IndexField} (h : (s.par.n : Int) ≤ idx.toInt) (r g b : Byte) :
    s.setLed idx r g b = s.raise (.indexOutOfRange idx) := by
  rcases s.setLed_cases idx r g b with ⟨hneg, -⟩ | ⟨-, hn, -⟩ | ⟨-, -, e⟩
  · exact absurd (s.par.n.cast_nonneg.trans h) (not_le.mpr hneg)
  · exact absurd hn (not_lt.mpr (le_toNat_of_le_toInt h))
  · exact e

/-! ### The settled statements -/

/-- Settles O35: the bytes `CLEAR` writes are those of `State.fbByte_clearFb`, and `FB` is the one field it writes. -/
theorem clearZeroesBuffer : Obligations.ClearZeroesBuffer := by
  refine fun s ignored => ⟨fun hidle => ?_, fun hbusy => exec_clear_of_not_idle hbusy ignored⟩
  refine ⟨s.clearFb, exec_clear_of_idle hidle ignored, fun k hk => ?_, fun k hk => ?_, s.clearFb_frame⟩
  · exact (s.fbByte_clearFb k).trans (if_pos hk)
  · exact (s.fbByte_clearFb k).trans (if_neg (not_lt.mpr hk))

/-- Settles O36: the three ranges of the index give the no-op, `State.storeColor` and the recorded fault. -/
theorem setThreeCases : Obligations.SetThreeCases := by
  refine fun s idx r g b hidle => ⟨fun hneg => ?_, fun h0 hlt => ?_, fun hge => ?_⟩
  · exact exec_set_of_negative s hneg r g b
  · have hled : idx.toNat < s.par.n := toNat_lt_of_toInt_lt h0 hlt
    obtain ⟨hg, hr, hb⟩ := s.fbByte_storeColor idx.toNat r g b
    refine ⟨s.storeColor idx.toNat r g b, ?_, hg, hr, hb, fun k hk => s.fbByte_storeColor_other hk r g b,
      s.storeColor_frame idx.toNat r g b⟩
    rw [exec_set_of_idle hidle, s.setLed_of_valid h0 hled]
  · rw [exec_set_of_idle hidle, s.setLed_of_tooLarge hge]
    rfl

end Sys2Proof.Machine
end

section
/-! What accepting a reserved word does (R78, R149). -/

namespace Sys2Proof.Machine

theorem exec_reserved (rest : Operands) (s : State) :
    exec (.reserved rest) s = .next (s.whenReady (s.illegal rest)) := rfl

/-- The 40 bits below the opcode do not reach the state: of an illegal command only its fault code is recorded. -/
theorem State.illegal_eq (s : State) (rest : Operands) :
    s.illegal rest = { s with err := if s.err = 0#2 then 3#2 else s.err } := rfl

/-- Settles O39: at `IDLE` the word is accepted, and its effect is the record of `State.illegal_eq`. -/
theorem reservedWordRecordsIllegal : Obligations.ReservedWordRecordsIllegal := by
  intro s rest hidle
  rw [exec_reserved, State.whenReady_of_idle hidle, State.illegal_eq]

end Sys2Proof.Machine
end

section
/-! Command words put together and taken apart (R74, R76): the fields of a built word, and the word built from the
fields. -/

namespace Sys2Proof

/-! ### The 40 bits below `op` -/

theorem operandBits_wordOf (op : BitVec 2) (rest : Operands) : operandBits (wordOf op rest) = rest := by
  apply BitVec.eq_of_getLsbD_eq
  intro i hi
  have h : i < 42 := by omega
  simp [operandBits, wordOf, hi, h]

/-- A word is its `op` and the 40 bits below it. -/
theorem wordOf_opField_operandBits (w : CmdWord) : wordOf (opField w) (operandBits w) = w := by
  apply BitVec.eq_of_getLsbD_eq
  intro i hi
  by_cases h : i < 40
  · simp [wordOf, operandBits, hi, h]
  · have hop : i - 40 < 2 := by omega
    have hi40 : 40 + (i - 40) = i := by omega
    simp [wordOf, opField, operandBits, hi, h, hop, hi40]

/-- A field below `op` can be cut out of the 40 bits. -/
theorem extractLsb'_operandBits (w : CmdWord) {start len : Nat} (h : start + len ≤ 40) :
    (operandBits w).extractLsb' start len = w.extractLsb' start len := by
  apply BitVec.eq_of_getLsbD_eq
  intro i hi
  have h40 : start + i < 40 := by omega
  simp [operandBits, hi, h40]

/-! ### The operands of `SET` -/

/-- Each bit of the operands of `SET` is a bit of the field that stands there. -/
theorem getLsbD_setOperands (idx : IndexField) (r g b : Byte) {k : Nat} (hk : k < 40) :
    (setOperands idx r g b).getLsbD k =
      if k < 8 then b.getLsbD k
      else if k < 16 then g.getLsbD (k - 8)
      else if k < 24 then r.getLsbD (k - 16)
      else idx.getLsbD (k - 24) := by
  split_ifs with h8 h16 h24
  · have h16 : k < 16 := by omega
    have h24 : k < 24 := by omega
    simp [setOperands, hk, h8, h16, h24]
  · have h24 : k < 24 := by omega
    have hb := b.getLsbD_of_ge k (by omega)
    simp [setOperands, hk, h8, h16, h24, hb]
  · have hb := b.getLsbD_of_ge k (by omega)
    have hg := g.getLsbD_of_ge (k - 8) (by omega)
    simp [setOperands, hk, h8, h16, h24, hb, hg]
  · have hb := b.getLsbD_of_ge k (by omega)
    have hg := g.getLsbD_of_ge (k - 8) (by omega)
    have hr := r.getLsbD_of_ge (k - 16) (by omega)
    simp [setOperands, hk, h8, h16, h24, hb, hg, hr]

/-- The fields that `decode` reads are the operands that `SET` was built from. -/
theorem fields_setOperands (idx : IndexField) (r g b : Byte) :
    (setOperands idx r g b).extractLsb' 24 16 = idx ∧ (setOperands idx r g b).extractLsb' 16 8 = r ∧
      (setOperands idx r g b).extractLsb' 8 8 = g ∧ (setOperands idx r g b).extractLsb' 0 8 = b := by
  refine ⟨?_, ?_, ?_, ?_⟩ <;> apply BitVec.eq_of_getLsbD_eq <;> intro i hi
  · have hk : 24 + i < 40 := by omega
    have h8 : ¬24 + i < 8 := by omega
    have h16 : ¬24 + i < 16 := by omega
    simp [getLsbD_setOperands _ _ _ _ hk, hi, h8, h16]
  · have hk : 16 + i < 40 := by omega
    have h8 : ¬16 + i < 8 := by omega
    have h24 : 16 + i < 24 := by omega
    simp [getLsbD_setOperands _ _ _ _ hk, hi, h8, h24]
  · have hk : 8 + i < 40 := by omega
    have h16 : 8 + i < 16 := by omega
    simp [getLsbD_setOperands _ _ _ _ hk, hi, h16]
  · have hk : i < 40 := by omega
    simp [getLsbD_setOperands _ _ _ _ hk, hi]

/-- The operands of `SET` are the four fields that `decode` reads. -/
theorem setOperands_fields (w : CmdWord) :
    setOperands (idxField w) (redField w) (greenField w) (blueField w) = operandBits w := by
  apply BitVec.eq_of_getLsbD_eq
  intro i hi
  rw [getLsbD_setOperands _ _ _ _ hi]
  have hw : (operandBits w).getLsbD i = w.getLsbD i := by simp [operandBits, hi]
  rw [hw]
  split_ifs with h8 h16 h24
  · simp [blueField, h8]
  · have h : i - 8 < 8 := by omega
    have e : 8 + (i - 8) = i := by omega
    simp [greenField, h, e]
  · have h : i - 16 < 8 := by omega
    have e : 16 + (i - 16) = i := by omega
    simp [redField, h, e]
  · have h : i - 24 < 16 := by omega
    have e : 24 + (i - 24) = i := by omega
    simp [idxField, h, e]

/-! ### Decoding by opcode -/

section
variable {w : CmdWord}

theorem decode_of_reserved (h : opField w = 0b00#2) : decode w = .reserved (operandBits w) :=
  (decode_eq_reserved_iff w).mpr h

theorem decode_of_clear (h : opField w = 0b01#2) : decode w = .clear (operandBits w) :=
  (decode_eq_clear_iff w).mpr h

theorem decode_of_set (h : opField w = 0b10#2) :
    decode w = .set (idxField w) (redField w) (greenField w) (blueField w) :=
  (decode_eq_set_iff w).mpr h

theorem decode_of_transmit (h : opField w = 0b11#2) : decode w = .transmit (operandBits w) :=
  (decode_eq_transmit_iff w).mpr h

end

/-- What holds of the four operations that have a word holds of every decoded one (R76). -/
theorem decode_induction {motive : Instr → Prop} (w : CmdWord) (reserved : ∀ rest, motive (.reserved rest))
    (clear : ∀ ignored, motive (.clear ignored)) (set : ∀ idx r g b, motive (.set idx r g b))
    (transmit : ∀ ignored, motive (.transmit ignored)) : motive (decode w) := by
  rcases opField_cases w with hop | hop | hop | hop
  · exact decode_of_reserved hop ▸ reserved _
  · exact decode_of_clear hop ▸ clear _
  · exact decode_of_set hop ▸ set _ _ _ _
  · exact decode_of_transmit hop ▸ transmit _

theorem decode_wordOf_set (idx : IndexField) (r g b : Byte) :
    decode (wordOf 0b10#2 (setOperands idx r g b)) = .set idx r g b := by
  obtain ⟨hidx, hr, hg, hb⟩ := fields_setOperands idx r g b
  rw [decode_of_set (Laws.opField_wordOf _ _), idxField, redField, greenField, blueField,
    ← extractLsb'_operandBits _ (by decide), ← extractLsb'_operandBits _ (by decide),
    ← extractLsb'_operandBits _ (by decide), ← extractLsb'_operandBits _ (by decide), operandBits_wordOf, hidx, hr, hg,
    hb]

/-! ### The settled statements -/

/-- Settles O2: the four operations with a word are built as `op` and 40 bits, and both parts are read back. -/
theorem decodeReadsBackEncode : Obligations.DecodeReadsBackEncode := by
  intro i hi
  cases i with
  | reserved rest =>
    exact ⟨_, rfl, by rw [decode_of_reserved (Laws.opField_wordOf _ _), operandBits_wordOf]⟩
  | clear ignored =>
    exact ⟨_, rfl, by rw [decode_of_clear (Laws.opField_wordOf _ _), operandBits_wordOf]⟩
  | set idx r g b => exact ⟨_, rfl, decode_wordOf_set idx r g b⟩
  | transmit ignored =>
    exact ⟨_, rfl, by rw [decode_of_transmit (Laws.opField_wordOf _ _), operandBits_wordOf]⟩
  | clkcfg => exact absurd hi (by decide)
  | bit0 => exact absurd hi (by decide)
  | bit1 => exact absurd hi (by decide)
  | reset => exact absurd hi (by decide)

/-- Settles O3: whichever of its four values `op` has, the operation keeps the 40 bits below it. -/
theorem encodeReadsBackDecode : Obligations.EncodeReadsBackDecode := by
  intro w
  have hw (op : BitVec 2) (h : opField w = op) : some (wordOf op (operandBits w)) = some w :=
    congrArg some (h ▸ wordOf_opField_operandBits w)
  rcases opField_cases w with h | h | h | h
  · rw [decode_of_reserved h]
    exact hw _ h
  · rw [decode_of_clear h]
    exact hw _ h
  · rw [decode_of_set h, encode, setOperands_fields]
    exact hw _ h
  · rw [decode_of_transmit h]
    exact hw _ h

/-- Settles O1: each word and each waveform is written out, so the decoder computes what it stands for. -/
theorem specWordsDecode : Obligations.SpecWordsDecode := by
  refine ⟨?_, ?_, ?_, ?_, ?_, ?_, ?_, ?_, ?_, ?_⟩ <;> decide

end Sys2Proof
end

section
/-! The transition relation of the core at both levels, move by move (R91 to R95, R116, R122 to R127, R136, R138): what
a step or an edge with reset released can do, said once. -/

namespace Sys2Proof.Machine

/-! ### What the sequencer comes to next -/

/-- The state at the first cycle of the symbol for bit `j` of byte `k` (R123, R125). -/
def State.symbolStart (s : State) (k : Nat) (j : BitVec 3) : State :=
  { s with
    byteIdx := k
    bitIdx := j
    curBit := (s.fbByte k).getLsbD j.toNat
    cnt := highCycles ((s.fbByte k).getLsbD j.toNat) - 1
    dout := true
    seq := .txHigh }

/-- The state at the first cycle of the latch period (R125). -/
def State.latchStart (s : State) : State := { s with cnt := s.par.tResetCyc - 1, seq := .txLatch }

/-- The byte and the bit to send after the present ones; none after the last bit of the last byte (R125). -/
def State.nextPlace (s : State) : Option (Nat × BitVec 3) :=
  if 0#3 < s.bitIdx then some (s.byteIdx, s.bitIdx - 1#3)
  else if s.byteIdx < s.par.fbLen - 1 then some (s.byteIdx + 1, 7#3)
  else none

/-- The cycles of the phase of a transmission that `SEQ` names (R122); no other state has one. -/
def State.phaseCycles (s : State) : Nat :=
  match s.seq with
  | .txHigh => highCycles s.curBit
  | .txLow => lowCycles s.curBit
  | .txLatch => s.par.tResetCyc
  | _ => 0

section
variable {s t : State}

theorem State.beginSymbol_eq_symbolStart {k : Nat} (j : BitVec 3) (h : k < s.par.fbLen) :
    s.beginSymbol k j = .next (s.symbolStart k j) := s.beginSymbol_of_lt j h

theorem State.nextPlace_eq_none_iff :
    s.nextPlace = none ↔ s.bitIdx = 0#3 ∧ s.par.fbLen - 1 ≤ s.byteIdx := by
  have hbit : ¬0#3 < s.bitIdx ↔ s.bitIdx = 0#3 := by bv_omega
  unfold State.nextPlace
  split_ifs with h1 h2
  · simp [← hbit, h1]
  · exact ⟨nofun, fun ⟨_, hlast⟩ => absurd h2 (not_lt.mpr hlast)⟩
  · simp [hbit.mp h1, not_lt.mp h2]

/-- The advance ends the frame where there is no further bit (R125). -/
theorem State.nextSymbol_of_none (h : s.nextPlace = none) : s.nextSymbol = .next s.latchStart := by
  unfold State.nextPlace at h
  split_ifs at h with h1 h2
  simp [State.nextSymbol, h1, h2, State.latchStart]

/-- The advance goes on with the next bit where there is one (R125). -/
theorem State.nextSymbol_of_some {k : Nat} {j : BitVec 3} (h : s.nextPlace = some (k, j)) :
    s.nextSymbol = s.beginSymbol k j := by
  unfold State.nextPlace at h
  split_ifs at h with h1 h2
  · obtain ⟨rfl, rfl⟩ := Prod.mk.inj (Option.some.inj h)
    simp [State.nextSymbol, h1]
  · obtain ⟨rfl, rfl⟩ := Prod.mk.inj (Option.some.inj h)
    simp [State.nextSymbol, h1, h2]

/-- What an advance that answers came to. -/
theorem State.nextSymbol_eq_next (h : s.nextSymbol = .next t) :
    (s.nextPlace = none ∧ t = s.latchStart) ∨
      ∃ k j, s.nextPlace = some (k, j) ∧ k < s.par.fbLen ∧ t = s.symbolStart k j := by
  cases hp : s.nextPlace with
  | none =>
    rw [State.nextSymbol_of_none hp] at h
    exact .inl ⟨rfl, (Host.Outcome.next.inj h).symm⟩
  | some place =>
    obtain ⟨k, j⟩ := place
    rw [State.nextSymbol_of_some hp] at h
    obtain ⟨hk, ht⟩ := State.beginSymbol_eq_next h
    exact .inr ⟨k, j, rfl, hk, ht⟩

end

/-! ### The moves -/

/-- The two levels of the core (R7). -/
inductive Grain where
  | operation
  | cycle

/-- `SEQ` after an accepted `CLEAR` or `SET`: `EXEC` for one cycle at the cycle level (R140, log entry 12). -/
def Grain.afterStore : Grain → Seq
  | .operation => .idle
  | .cycle => .exec

/-- The moves of the core with reset released, before the inputs are sampled. Those of grain `g` are moves of both
levels. -/
inductive Move (s : State) : Grain → State → Prop
  /-- R91. -/
  | write {g} (hseq : s.seq = .cfgWrite) : Move s g s.clkWrite
  /-- R93, with cycles to wait. -/
  | settle {g} (hseq : s.seq = .cfgSettle) (hcnt : 0 < s.cnt) : Move s g { s with cnt := s.cnt - 1 }
  /-- R93, the end of the wait. -/
  | settled {g} (hseq : s.seq = .cfgSettle) (hcnt : s.cnt = 0) : Move s g { s with seq := .cfgFclr }
  /-- R94, no fault reported. -/
  | cleared {g} (hseq : s.seq = .cfgFclr) (hosc : s.input.oscFaultSet = false) :
    Move s g { s with oscFault := false, seq := .idle }
  /-- R94, a fault reported and retries left. -/
  | retry {g} (hseq : s.seq = .cfgFclr) (hosc : s.input.oscFaultSet = true)
      (hleft : boundUsedUp s.par.maxRetry (s.retryCnt + 1) = false) :
    Move s g { s with oscFault := true, retryCnt := s.retryCnt + 1 }
  /-- R95(b), a fault reported and the retries used up. -/
  | timeout {g} (hseq : s.seq = .cfgFclr) (hosc : s.input.oscFaultSet = true)
      (hused : boundUsedUp s.par.maxRetry (s.retryCnt + 1) = true) :
    Move s g
      { s with
        oscFault := true
        retryCnt := s.retryCnt + 1
        err := if s.err = 0#2 then 1#2 else s.err
        seq := .cfgFailed }
  /-- R95(b), stopped. -/
  | failed {g} (hseq : s.seq = .cfgFailed) : Move s g s
  /-- R127, no command offered. -/
  | wait {g} (hseq : s.seq = .idle) (hcmd : s.input.cmd = none) : Move s g s
  /-- R149. -/
  | illegal {g w} (hseq : s.seq = .idle) (hcmd : s.input.cmd = some w) (hop : opField w = 0b00#2) :
    Move s g { s with err := if s.err = 0#2 then 3#2 else s.err }
  /-- R136. -/
  | clear {g w} (hseq : s.seq = .idle) (hcmd : s.input.cmd = some w) (hop : opField w = 0b01#2) :
    Move s g { s with fb := s.clearFb.fb, seq := g.afterStore }
  /-- R138, a negative index. -/
  | setNegative {g w} (hseq : s.seq = .idle) (hcmd : s.input.cmd = some w) (hop : opField w = 0b10#2)
      (hidx : (idxField w).toInt < 0) : Move s g { s with seq := g.afterStore }
  /-- R138, an index in range. -/
  | setValid {g w} (hseq : s.seq = .idle) (hcmd : s.input.cmd = some w) (hop : opField w = 0b10#2)
      (hpos : 0 ≤ (idxField w).toInt) (hidx : (idxField w).toNat < s.par.n) :
    Move s g
      { s with
        fb := (s.storeColor (idxField w).toNat (redField w) (greenField w) (blueField w)).fb
        seq := g.afterStore }
  /-- R138, an index of `N` or more. -/
  | setTooLarge {g w} (hseq : s.seq = .idle) (hcmd : s.input.cmd = some w) (hop : opField w = 0b10#2)
      (hidx : (s.par.n : Int) ≤ (idxField w).toInt) :
    Move s g { s with err := if s.err = 0#2 then 2#2 else s.err, seq := g.afterStore }
  /-- R116, the whole frame. -/
  | transmit {w} (hseq : s.seq = .idle) (hcmd : s.input.cmd = some w) (hop : opField w = 0b11#2) :
    Move s .operation
      { s with
        wire := s.wire ++ s.frameSegments
        syms := s.syms ++ s.frameSymbols
        dout := false
        byteIdx := s.par.fbLen - 1
        bitIdx := 0#3
        curBit := (s.fbByte (s.par.fbLen - 1)).getLsbD 0
        cnt := 0
        seq := .idle }
  /-- R123. -/
  | frameStart {w} (hseq : s.seq = .idle) (hcmd : s.input.cmd = some w) (hop : opField w = 0b11#2)
      (hlen : 0 < s.par.fbLen) : Move s .cycle (s.symbolStart 0 7#3)
  /-- R127, the end of `EXEC`. -/
  | stored {g} (hseq : s.seq = .exec) : Move s g { s with seq := .idle }
  /-- R124 to R126, a cycle of a phase that goes on. -/
  | tick {g} (htx : s.seq.transmitting = true) (hcnt : 0 < s.cnt) :
    Move s g { s.record s.phaseCycles with cnt := s.cnt - 1 }
  /-- R124, the falling edge. -/
  | fall {g} (hseq : s.seq = .txHigh) (hcnt : s.cnt = 0) :
    Move s g
      { s.record (highCycles s.curBit) with dout := false, cnt := lowCycles s.curBit - 1, seq := .txLow }
  /-- R125, on to the next bit. -/
  | lowToSymbol {g k j} (hseq : s.seq = .txLow) (hcnt : s.cnt = 0) (hplace : s.nextPlace = some (k, j))
      (hk : k < s.par.fbLen) :
    Move s g (((s.record (lowCycles s.curBit)).sym (bitSymbol s.curBit)).symbolStart k j)
  /-- R125, on to the latch period. -/
  | lowToLatch {g} (hseq : s.seq = .txLow) (hcnt : s.cnt = 0) (hplace : s.nextPlace = none) :
    Move s g ((s.record (lowCycles s.curBit)).sym (bitSymbol s.curBit)).latchStart
  /-- R126, the end of the frame. -/
  | latched {g} (hseq : s.seq = .txLatch) (hcnt : s.cnt = 0) :
    Move s g { (s.record s.par.tResetCyc).sym .rst with seq := .idle }
  /-- R106, R107, a whole symbol and on to the next bit. -/
  | pulseToSymbol {k j} (hseq : s.seq = .txHigh) (hcnt : s.cnt + 1 = highCycles s.curBit)
      (hplace : s.nextPlace = some (k, j)) (hk : k < s.par.fbLen) :
    Move s .operation ((s.pulseBit s.curBit).symbolStart k j)
  /-- R106, R107, a whole symbol and on to the latch period. -/
  | pulseToLatch (hseq : s.seq = .txHigh) (hcnt : s.cnt + 1 = highCycles s.curBit) (hplace : s.nextPlace = none) :
    Move s .operation (s.pulseBit s.curBit).latchStart
  /-- R108, the whole latch period. -/
  | latch (hseq : s.seq = .txLatch) (hcnt : s.cnt + 1 = s.par.tResetCyc) :
    Move s .operation { s.pulseLatch with cnt := 0, seq := .idle }

/-! ### Every operation, edge and step is a move -/

section
variable {s t : State}

/-- `CLKCFG` before the clock is stable. -/
theorem Move.of_clkcfg {g : Grain} (hclk : s.clkStable = false) (h : exec .clkcfg s = .next t) : Move s g t := by
  cases hseq : s.seq with
  | cfgWrite =>
    rw [exec_clkcfg_of_cfgWrite hseq] at h
    obtain rfl := Host.Outcome.next.inj h
    exact .write hseq
  | cfgSettle =>
    rw [exec_clkcfg_of_cfgSettle hseq] at h
    obtain rfl := Host.Outcome.next.inj h
    rcases Nat.eq_zero_or_pos s.cnt with hcnt | hcnt
    · rw [State.clkSettle_of_zero hcnt]
      exact .settled hseq hcnt
    · rw [State.clkSettle_of_pos hcnt]
      exact .settle hseq hcnt
  | cfgFclr =>
    rw [exec_clkcfg_of_cfgFclr hseq] at h
    obtain rfl := Host.Outcome.next.inj h
    rcases s.clkIterate_cases s.input.oscFaultSet with ⟨hosc, e⟩ | ⟨hosc, hleft, e⟩ | ⟨hosc, hused, e⟩ <;> rw [e]
    · exact .cleared hseq hosc
    · exact .retry hseq hosc hleft
    · exact .timeout hseq hosc hused
  | cfgFailed =>
    rw [exec_clkcfg_of_over (by simp [hseq]) (by simp [hseq]) (by simp [hseq])] at h
    obtain rfl := Host.Outcome.next.inj h
    exact .failed hseq
  | _ => simp [State.clkState, clkStateOf, hseq] at hclk

/-- `SET` from `IDLE`, with the `SEQ` of its level after it. -/
theorem Move.of_setLed {g : Grain} {w : CmdWord} (hseq : s.seq = .idle) (hcmd : s.input.cmd = some w)
    (hop : opField w = 0b10#2) :
    Move s g { s.setLed (idxField w) (redField w) (greenField w) (blueField w) with seq := g.afterStore } := by
  rcases s.setLed_cases (idxField w) (redField w) (greenField w) (blueField w) with ⟨hidx, e⟩ | ⟨hpos, hidx, e⟩ |
    ⟨hpos, hidx, e⟩ <;> rw [e]
  · exact .setNegative hseq hcmd hop hidx
  · exact .setValid hseq hcmd hop hpos hidx
  · have hint : (idxField w).toInt = (idxField w).toNat :=
      BitVec.toInt_eq_toNat_of_lt (BitVec.toInt_pos_iff.mp hpos)
    exact .setTooLarge hseq hcmd hop (by omega)

/-- The advance after a bit symbol, from the state in which the symbol is complete. -/
theorem Move.of_nextSymbol {g : Grain} {done : State} (h : done.nextSymbol = .next t)
    (hplace : done.nextPlace = s.nextPlace) (hlen : done.par.fbLen = s.par.fbLen)
    (hsymbol : ∀ k j, s.nextPlace = some (k, j) → k < s.par.fbLen → Move s g (done.symbolStart k j))
    (hlatch : s.nextPlace = none → Move s g done.latchStart) : Move s g t := by
  rcases State.nextSymbol_eq_next h with ⟨hp, rfl⟩ | ⟨k, j, hp, hk, rfl⟩
  · exact hlatch (hplace ▸ hp)
  · exact hsymbol k j (hplace ▸ hp) (hlen ▸ hk)

theorem Move.of_edgeHigh {g : Grain} (hseq : s.seq = .txHigh) : Move s g s.edgeHigh := by
  rcases s.edgeHigh_cases with ⟨hcnt, e⟩ | ⟨hcnt, e⟩ <;> rw [e]
  · have hphase : s.phaseCycles = highCycles s.curBit := by simp only [State.phaseCycles, hseq]
    exact hphase ▸ .tick (by simp [hseq, Seq.transmitting]) hcnt
  · exact .fall hseq hcnt

theorem Move.of_edgeLow {g : Grain} (hseq : s.seq = .txLow) (h : s.edgeLow = .next t) : Move s g t := by
  rcases s.edgeLow_cases with ⟨hcnt, e⟩ | ⟨hcnt, e⟩ <;> rw [e] at h
  · obtain rfl := Host.Outcome.next.inj h
    have hphase : s.phaseCycles = lowCycles s.curBit := by simp only [State.phaseCycles, hseq]
    exact hphase ▸ .tick (by simp [hseq, Seq.transmitting]) hcnt
  · exact .of_nextSymbol h rfl rfl (fun _ _ hp hk => .lowToSymbol hseq hcnt hp hk) (.lowToLatch hseq hcnt)

theorem Move.of_edgeLatch {g : Grain} (hseq : s.seq = .txLatch) : Move s g s.edgeLatch := by
  rcases s.edgeLatch_cases with ⟨hcnt, e⟩ | ⟨hcnt, e⟩ <;> rw [e]
  · have hphase : s.phaseCycles = s.par.tResetCyc := by simp only [State.phaseCycles, hseq]
    exact hphase ▸ .tick (by simp [hseq, Seq.transmitting]) hcnt
  · exact .latched hseq hcnt

/-- An edge that no command word concerns: one in which none is accepted. -/
theorem Move.of_sequencerEdge {g : Grain} (hacc : s.accepted = none) (h : sequencerEdge s = .next t) :
    Move s g t := by
  unfold sequencerEdge at h
  cases hseq : s.seq with
  | idle =>
    rw [hseq] at h
    obtain rfl := Host.Outcome.next.inj h
    simp only [State.accepted, hseq, if_true, Option.map_eq_none_iff] at hacc
    exact .wait hseq hacc
  | exec =>
    rw [hseq] at h
    obtain rfl := Host.Outcome.next.inj h
    exact .stored hseq
  | txHigh =>
    rw [hseq] at h
    obtain rfl := Host.Outcome.next.inj h
    exact .of_edgeHigh hseq
  | txLow =>
    rw [hseq] at h
    exact .of_edgeLow hseq h
  | txLatch =>
    rw [hseq] at h
    obtain rfl := Host.Outcome.next.inj h
    exact .of_edgeLatch hseq
  | _ =>
    rw [hseq] at h
    exact .of_clkcfg (by simp [State.clkState, clkStateOf, hseq]) h

/-! ### The cycle level -/

/-- The command accepted at an edge is the one that stands on the port at `IDLE` (R73). -/
theorem State.accepted_eq_some {i : Instr} (h : s.accepted = some i) :
    s.seq = .idle ∧ ∃ w, s.input.cmd = some w ∧ decode w = i := by
  unfold State.accepted at h
  split_ifs at h with hseq
  exact ⟨hseq, Option.map_eq_some_iff.mp h⟩

theorem edgeBody_of_accepted {i : Instr} (h : s.accepted = some i) : edgeBody s = accept i s := by
  rw [edgeBody, h]

theorem Move.of_accept {w : CmdWord} (hseq : s.seq = .idle) (hcmd : s.input.cmd = some w)
    (h : accept (decode w) s = .next t) : Move s .cycle t := by
  rcases opField_cases w with hop | hop | hop | hop
  · rw [decode_of_reserved hop] at h
    obtain rfl := Host.Outcome.next.inj h
    exact .illegal hseq hcmd hop
  · rw [decode_of_clear hop] at h
    obtain rfl := Host.Outcome.next.inj h
    rw [State.clearFb_frame]
    exact .clear hseq hcmd hop
  · rw [decode_of_set hop] at h
    obtain rfl := Host.Outcome.next.inj h
    exact .of_setLed hseq hcmd hop
  · rw [decode_of_transmit hop] at h
    obtain ⟨hlen, rfl⟩ := State.beginSymbol_eq_next h
    exact .frameStart hseq hcmd hop hlen

theorem Move.of_edgeBody (h : edgeBody s = .next t) : Move s .cycle t := by
  cases hacc : s.accepted with
  | none =>
    rw [edgeBody_of_not_accepted hacc] at h
    exact .of_sequencerEdge hacc h
  | some i =>
    rw [edgeBody_of_accepted hacc] at h
    obtain ⟨hseq, w, hcmd, rfl⟩ := State.accepted_eq_some hacc
    exact .of_accept hseq hcmd h

/-! ### The operation level -/

theorem State.current_of_not_stable (h : s.clkStable = false) : s.current = some .clkcfg := by
  cases hseq : s.seq <;> simp [State.current, State.clkState, clkStateOf, hseq] at h ⊢

theorem State.current_of_idle (h : s.seq = .idle) : s.current = s.input.cmd.map decode := by
  simp only [State.current, h]

theorem stepBody_of_current {i : Instr} (h : s.current = some i) : stepBody s = andThen (exec i s) (resume i) := by
  rw [stepBody, h]

theorem stepBody_of_no_current (h : s.current = none) : stepBody s = sequencerEdge s := by
  rw [stepBody, h]

/-- A command leaves `SEQ` where it put it: nothing follows it. -/
theorem resume_decode (w : CmdWord) (s : State) : resume (decode w) s = .next s :=
  decode_induction (motive := fun i => resume i s = .next s) w (fun _ => rfl) (fun _ => rfl) (fun _ _ _ _ => rfl)
    fun _ => rfl

/-- At `IDLE` a step runs the command on the port. -/
theorem stepBody_of_idle {w : CmdWord} (hseq : s.seq = .idle) (hcmd : s.input.cmd = some w) :
    stepBody s = exec (decode w) s := by
  have hcur : s.current = some (decode w) := by rw [State.current_of_idle hseq, hcmd, Option.map_some]
  rw [stepBody_of_current hcur]
  have hres : resume (decode w) = Host.Outcome.next := funext (resume_decode w)
  rw [hres]
  cases exec (decode w) s <;> rfl

/-- What the commands do at `IDLE`, by the opcode of their word. -/
theorem exec_decode_of_idle {w : CmdWord} (hseq : s.seq = .idle) :
    (opField w = 0b00#2 ∧ exec (decode w) s = .next (s.illegal (operandBits w))) ∨
      (opField w = 0b01#2 ∧ exec (decode w) s = .next s.clearFb) ∨
      (opField w = 0b10#2 ∧
        exec (decode w) s = .next (s.setLed (idxField w) (redField w) (greenField w) (blueField w))) ∨
      (opField w = 0b11#2 ∧ exec (decode w) s = .next s.transmit) := by
  rcases opField_cases w with hop | hop | hop | hop
  · exact .inl ⟨hop, by rw [decode_of_reserved hop, exec_reserved, State.whenReady_of_idle hseq]⟩
  · exact .inr (.inl ⟨hop, by rw [decode_of_clear hop, exec_clear_of_idle hseq]⟩)
  · exact .inr (.inr (.inl ⟨hop, by rw [decode_of_set hop, exec_set_of_idle hseq]⟩))
  · exact .inr (.inr (.inr ⟨hop, by rw [decode_of_transmit hop, exec_transmit_of_idle hseq]⟩))

theorem State.setLed_seq (s : State) (idx : IndexField) (r g b : Byte) : (s.setLed idx r g b).seq = s.seq := by
  rcases s.setLed_cases idx r g b with ⟨-, e⟩ | ⟨-, -, e⟩ | ⟨-, -, e⟩ <;> rw [e] <;> rfl

theorem Move.of_command {w : CmdWord} (hseq : s.seq = .idle) (hcmd : s.input.cmd = some w)
    (h : exec (decode w) s = .next t) : Move s .operation t := by
  rcases exec_decode_of_idle (w := w) hseq with ⟨hop, e⟩ | ⟨hop, e⟩ | ⟨hop, e⟩ | ⟨hop, e⟩ <;>
    obtain rfl := Host.Outcome.next.inj (e.symm.trans h)
  · exact .illegal hseq hcmd hop
  · have hm := Move.clear (g := .operation) hseq hcmd hop
    rwa [Grain.afterStore, ← hseq, ← State.clearFb_frame] at hm
  · have hm := Move.of_setLed (g := .operation) hseq hcmd hop
    rwa [Grain.afterStore, ← hseq, ← State.setLed_seq s] at hm
  · rw [State.transmit_eq]
    exact .transmit hseq hcmd hop

/-- A bit symbol run whole, from its first cycle. -/
theorem Move.of_pulse (hseq : s.seq = .txHigh) (hcnt : s.cnt + 1 = highCycles s.curBit)
    (h : (s.pulseBit s.curBit).nextSymbol = .next t) : Move s .operation t :=
  .of_nextSymbol h rfl rfl (fun _ _ hp hk => .pulseToSymbol hseq hcnt hp hk) (.pulseToLatch hseq hcnt)

theorem stepBody_of_first_high (hseq : s.seq = .txHigh) (hcnt : s.cnt + 1 = highCycles s.curBit) :
    stepBody s = (s.pulseBit s.curBit).nextSymbol := by
  cases hbit : s.curBit with
  | false =>
    rw [hbit] at hcnt
    rw [stepBody_of_current (i := .bit0) (by simp [State.current, hseq, hcnt, hbit])]
    rfl
  | true =>
    rw [hbit] at hcnt
    rw [stepBody_of_current (i := .bit1) (by simp [State.current, hseq, hcnt, hbit])]
    rfl

theorem stepBody_of_first_latch (hseq : s.seq = .txLatch) (hcnt : s.cnt + 1 = s.par.tResetCyc) :
    stepBody s = .next { s.pulseLatch with cnt := 0, seq := .idle } := by
  rw [stepBody_of_current (i := .reset) (by simp [State.current, hseq, hcnt])]
  rfl

theorem Move.of_stepBody (h : stepBody s = .next t) : Move s .operation t := by
  cases hseq : s.seq with
  | idle =>
    cases hcmd : s.input.cmd with
    | none =>
      rw [stepBody_of_no_current (by rw [State.current_of_idle hseq, hcmd, Option.map_none])] at h
      exact .of_sequencerEdge (by simp [State.accepted, hcmd]) h
    | some w => exact .of_command hseq hcmd ((stepBody_of_idle hseq hcmd).symm.trans h)
  | exec =>
    rw [stepBody_of_no_current (by simp only [State.current, hseq])] at h
    exact .of_sequencerEdge (State.accepted_of_not_idle (by simp [hseq])) h
  | txHigh =>
    by_cases hcnt : s.cnt + 1 = highCycles s.curBit
    · exact .of_pulse hseq hcnt ((stepBody_of_first_high hseq hcnt).symm.trans h)
    · rw [stepBody_of_no_current (by simp [State.current, hseq, hcnt])] at h
      exact .of_sequencerEdge (State.accepted_of_not_idle (by simp [hseq])) h
  | txLow =>
    rw [stepBody_of_no_current (by simp only [State.current, hseq])] at h
    exact .of_sequencerEdge (State.accepted_of_not_idle (by simp [hseq])) h
  | txLatch =>
    by_cases hcnt : s.cnt + 1 = s.par.tResetCyc
    · obtain rfl := Host.Outcome.next.inj ((stepBody_of_first_latch hseq hcnt).symm.trans h)
      exact .latch hseq hcnt
    · rw [stepBody_of_no_current (by simp [State.current, hseq, hcnt])] at h
      exact .of_sequencerEdge (State.accepted_of_not_idle (by simp [hseq])) h
  | _ =>
    have hclk : s.clkStable = false := by simp [State.clkState, clkStateOf, hseq]
    rw [stepBody_of_current (State.current_of_not_stable hclk)] at h
    obtain ⟨u, hu, ht⟩ := andThen_eq_next h
    obtain rfl := Host.Outcome.next.inj ht
    exact .of_clkcfg hclk hu

/-- A step is a reset, or a move of the operation level and the sampling of the inputs. -/
theorem step_cases (h : step s = .next t) :
    (s.input.rstN = false ∧ t = s.takeReset) ∨
      (s.input.rstN = true ∧ ∃ u, Move s .operation u ∧ t = u.sample s) :=
  (step_eq_next h).imp_right fun ⟨hr, u, hu, ht⟩ => ⟨hr, u, .of_stepBody hu, ht⟩

/-- An edge is a reset, or a move of the cycle level and the sampling of the inputs. -/
theorem edge_cases (h : edge s = .next t) :
    (s.input.rstN = false ∧ t = s.takeReset) ∨
      (s.input.rstN = true ∧ ∃ u, Move s .cycle u ∧ t = u.sample s) :=
  (edge_eq_next h).imp_right fun ⟨hr, u, hu, ht⟩ => ⟨hr, u, .of_edgeBody hu, ht⟩

/-- What a step and an edge have in common: a reset, or a move and the sampling of the inputs. -/
theorem next_cases (h : step s = .next t ∨ edge s = .next t) :
    (s.input.rstN = false ∧ t = s.takeReset) ∨
      (s.input.rstN = true ∧ ∃ g u, Move s g u ∧ t = u.sample s) := by
  rcases h with h | h
  · exact (step_cases h).imp_right fun ⟨hr, u, hu, ht⟩ => ⟨hr, _, u, hu, ht⟩
  · exact (edge_cases h).imp_right fun ⟨hr, u, hu, ht⟩ => ⟨hr, _, u, hu, ht⟩

/-- With reset released, a move and the sampling of the inputs. -/
theorem next_cases_of_released (hr : s.input.rstN = true) (h : step s = .next t ∨ edge s = .next t) :
    ∃ g u, Move s g u ∧ t = u.sample s := by
  rcases next_cases h with ⟨hr', -⟩ | ⟨-, hm⟩
  · exact absurd (hr.symm.trans hr') (by decide)
  · exact hm

end

end Sys2Proof.Machine
end

section
/-! The invariant of the core, in two parts: the clock configuration with `ERR`, and the frame buffer with the line and
the working registers. Every move keeps each part. -/

namespace Sys2Proof.Machine

/-! ### The two parts of the invariant -/

/-- The clauses of `Inv` about the parameters, the clock configuration and `ERR`. -/
structure State.ClockInv (s : State) : Prop where
  par : s.par.wellFormed
  settle : s.seq = .cfgSettle → s.cnt ≤ s.par.tSettleCyc
  clockReset : s.seq = .cfgWrite → s.clkSrc = s.par.clkSrcReset ∧ s.clkDiv = s.par.clkDivReset
  clockTarget : s.seq ≠ .cfgWrite → s.clkSrc = s.par.clkSrcTarget ∧ s.clkDiv = s.par.clkDivTarget
  errEarly : s.seq = .cfgWrite ∨ s.seq = .cfgSettle ∨ s.seq = .cfgFclr → s.err = 0#2
  errTimeout : s.err = 1#2 ↔ s.seq = .cfgFailed
  retryZero : s.seq = .cfgWrite ∨ s.seq = .cfgSettle → s.retryCnt = 0
  retryLeft : s.seq ≠ .cfgFailed → boundUsedUp s.par.maxRetry s.retryCnt = false
  retryFailed : s.seq = .cfgFailed → s.par.maxRetry = .finite s.retryCnt

/-- The clauses of `Inv` about the frame buffer, the line and the working registers. -/
structure State.FrameInv (s : State) : Prop where
  fbForm : Memory.wf s.fb
  fbRange : ∀ c ∈ s.fb, c.1 < s.par.fbLen
  byteRange : s.byteIdx < s.par.fbLen
  line : s.dout = true ↔ s.seq = .txHigh
  cntRange : s.cnt < 2 ^ s.par.cntWidth
  high : s.seq = .txHigh → s.cnt < highCycles s.curBit
  low : s.seq = .txLow → s.cnt < lowCycles s.curBit
  latch : s.seq = .txLatch → s.cnt < s.par.tResetCyc
  bit : s.seq = .txHigh ∨ s.seq = .txLow → s.curBit = (s.fbByte s.byteIdx).getLsbD s.bitIdx.toNat

theorem inv_iff (s : State) : Inv s ↔ s.ClockInv ∧ s.FrameInv :=
  ⟨fun h => ⟨{ h with }, { h with }⟩, fun ⟨hc, hf⟩ => { hc, hf with }⟩

section
variable {s u : State} {g : Grain}

/-! ### A stable clock -/

/-- A move that begins with the clock stable leaves the clock configuration as it is (R99). -/
theorem Move.keeps_clock (h : Move s g u) (hclk : s.clkState = .stable) :
    u.clkState = .stable ∧ u.clkSrc = s.clkSrc ∧ u.clkDiv = s.clkDiv ∧ u.retryCnt = s.retryCnt ∧
      u.oscFault = s.oscFault ∧ u.par = s.par := by
  have hstore : clkStateOf g.afterStore = .stable := by cases g <;> rfl
  unfold State.clkState at hclk ⊢
  cases h with
  | write hseq => simp [hseq, clkStateOf] at hclk
  | settle hseq => simp [hseq, clkStateOf] at hclk
  | settled hseq => simp [hseq, clkStateOf] at hclk
  | cleared hseq => simp [hseq, clkStateOf] at hclk
  | retry hseq => simp [hseq, clkStateOf] at hclk
  | timeout hseq => simp [hseq, clkStateOf] at hclk
  | failed hseq => simp [hseq, clkStateOf] at hclk
  | wait | illegal | tick => exact ⟨hclk, rfl, rfl, rfl, rfl, rfl⟩
  | clear | setNegative | setValid | setTooLarge => exact ⟨hstore, rfl, rfl, rfl, rfl, rfl⟩
  | _ => exact ⟨rfl, rfl, rfl, rfl, rfl, rfl⟩

/-- From a stable clock no move records a timeout. -/
theorem Move.err_ne_timeout (h : Move s g u) (hclk : s.clkState = .stable) (herr : s.err ≠ 1#2) : u.err ≠ 1#2 := by
  unfold State.clkState at hclk
  cases h with
  | timeout hseq => simp [hseq, clkStateOf] at hclk
  | illegal => split_ifs <;> simp [*]
  | setTooLarge => split_ifs <;> simp [*]
  | _ => exact herr

/-! ### The clock configuration -/

theorem State.seq_of_stable (h : s.clkState = .stable) :
    s.seq ≠ .cfgWrite ∧ s.seq ≠ .cfgSettle ∧ s.seq ≠ .cfgFclr ∧ s.seq ≠ .cfgFailed := by
  unfold State.clkState at h
  cases hseq : s.seq <;> simp [hseq, clkStateOf] at h ⊢

/-- The bound is used up for the first time exactly when it is reached (R94d). -/
theorem eq_finite_of_boundUsedUp {bound : RetryBound} {retries : Nat} (hleft : boundUsedUp bound retries = false)
    (hused : boundUsedUp bound (retries + 1) = true) : bound = .finite (retries + 1) := by
  cases bound with
  | inf => simp [boundUsedUp] at hused
  | finite b =>
    simp only [boundUsedUp, decide_eq_true_eq, decide_eq_false_iff_not] at hleft hused
    exact congrArg _ (by omega)

/-- The clock part of the invariant in a stable state asks only for the target settings, the retries and `ERR`. -/
theorem State.ClockInv.of_stable (hi : s.ClockInv) (hs : s.clkState = .stable) (hu : u.clkState = .stable)
    (hpar : u.par = s.par) (hsrc : u.clkSrc = s.clkSrc) (hdiv : u.clkDiv = s.clkDiv) (hretry : u.retryCnt = s.retryCnt)
    (herr : u.err ≠ 1#2) : u.ClockInv := by
  obtain ⟨swrite, -, -, sfailed⟩ := State.seq_of_stable hs
  obtain ⟨uwrite, usettle, ufclr, ufailed⟩ := State.seq_of_stable hu
  exact
    { par := hpar ▸ hi.par
      settle := fun h => absurd h usettle
      clockReset := fun h => absurd h uwrite
      clockTarget := fun _ => by rw [hpar, hsrc, hdiv]; exact hi.clockTarget swrite
      errEarly := fun h => by simp [uwrite, usettle, ufclr] at h
      errTimeout := iff_of_false herr ufailed
      retryZero := fun h => by simp [uwrite, usettle] at h
      retryLeft := fun _ => by rw [hpar, hretry]; exact hi.retryLeft sfailed
      retryFailed := fun h => absurd h ufailed }

/-- The first state with a stable clock (R94a). -/
theorem State.ClockInv.cleared (hi : s.ClockInv) (hseq : s.seq = .cfgFclr) :
    ({ s with oscFault := false, seq := .idle } : State).ClockInv where
  par := hi.par
  settle := nofun
  clockReset := nofun
  clockTarget := fun _ => hi.clockTarget (by simp [hseq])
  errEarly := by simp
  errTimeout := by simp [hi.errTimeout, hseq]
  retryZero := by simp
  retryLeft := fun _ => hi.retryLeft (by simp [hseq])
  retryFailed := nofun

/-- The timeout happens with no fault recorded before it, when `RETRY_CNT` reaches the bound (R95b, R146). -/
theorem State.ClockInv.timeout (hi : s.ClockInv) (hseq : s.seq = .cfgFclr)
    (hused : boundUsedUp s.par.maxRetry (s.retryCnt + 1) = true) :
    ({ s with
        oscFault := true
        retryCnt := s.retryCnt + 1
        err := if s.err = 0#2 then 1#2 else s.err
        seq := .cfgFailed } : State).ClockInv where
  par := hi.par
  settle := nofun
  clockReset := nofun
  clockTarget := fun _ => hi.clockTarget (by simp [hseq])
  errEarly := by simp
  errTimeout := by simp [hi.errEarly (.inr (.inr hseq))]
  retryZero := by simp
  retryLeft := fun h => absurd rfl h
  retryFailed := fun _ => eq_finite_of_boundUsedUp (hi.retryLeft (by simp [hseq])) hused

theorem State.clkState_of_transmitting (h : s.seq.transmitting = true) : s.clkState = .stable := by
  unfold State.clkState
  cases hseq : s.seq <;> simp [hseq, Seq.transmitting, clkStateOf] at h ⊢

theorem Move.keeps_clockInv (h : Move s g u) (hi : s.ClockInv) : u.ClockInv := by
  by_cases hclk : s.clkState = .stable
  · obtain ⟨hstable, hsrc, hdiv, hretry, -, hpar⟩ := h.keeps_clock hclk
    have herr : s.err ≠ 1#2 := fun e => (State.seq_of_stable hclk).2.2.2 (hi.errTimeout.mp e)
    exact hi.of_stable hclk hstable hpar hsrc hdiv hretry (h.err_ne_timeout hclk herr)
  · cases h with
    | write hseq =>
      have herr : s.err = 0#2 := hi.errEarly (.inl hseq)
      exact
        { hi with
          settle := fun _ => le_rfl
          clockReset := nofun
          clockTarget := fun _ => ⟨rfl, rfl⟩
          errEarly := fun _ => herr
          errTimeout := by simp [herr]
          retryZero := fun _ => hi.retryZero (.inl hseq)
          retryLeft := fun _ => hi.retryLeft (by simp [hseq])
          retryFailed := nofun }
    | settle hseq => exact { hi with settle := fun _ => (Nat.sub_le _ _).trans (hi.settle hseq) }
    | settled hseq =>
      have herr : s.err = 0#2 := hi.errEarly (.inr (.inl hseq))
      exact
        { hi with
          settle := nofun
          clockReset := nofun
          clockTarget := fun _ => hi.clockTarget (by simp [hseq])
          errEarly := fun _ => herr
          errTimeout := by simp [herr]
          retryZero := by simp
          retryLeft := fun _ => hi.retryLeft (by simp [hseq])
          retryFailed := nofun }
    | cleared hseq => exact hi.cleared hseq
    | retry hseq _ hleft =>
      exact
        { hi with
          retryZero := by simp [hseq]
          retryLeft := fun _ => hleft
          retryFailed := by simp [hseq] }
    | timeout hseq _ hused => exact hi.timeout hseq hused
    | failed => exact hi
    | tick htx => exact absurd (State.clkState_of_transmitting htx) hclk
    | _ => exact absurd (by simp [State.clkState, clkStateOf, *]) hclk

/-! ### The frame buffer, the line and the working registers -/

/-- The line is low outside `TX_HIGH`. -/
theorem State.FrameInv.dout_eq_false (hi : s.FrameInv) (h : s.seq ≠ .txHigh) : s.dout = false :=
  Bool.eq_false_iff.mpr fun hd => h (hi.line.mp hd)

/-- Outside a transmission only `FB`, `BYTE_IDX`, the low line and the width of `CNT` are left of this part. -/
theorem State.FrameInv.of_silent (hform : Memory.wf u.fb) (hrange : ∀ c ∈ u.fb, c.1 < u.par.fbLen)
    (hbyte : u.byteIdx < u.par.fbLen) (hline : u.dout = false) (hcnt : u.cnt < 2 ^ u.par.cntWidth)
    (hseq : u.seq.transmitting = false) : u.FrameInv := by
  have hhigh : u.seq ≠ .txHigh := fun h => by simp [h, Seq.transmitting] at hseq
  have hlow : u.seq ≠ .txLow := fun h => by simp [h, Seq.transmitting] at hseq
  have hlatch : u.seq ≠ .txLatch := fun h => by simp [h, Seq.transmitting] at hseq
  exact
    { fbForm := hform
      fbRange := hrange
      byteRange := hbyte
      line := iff_of_false (by simp [hline]) hhigh
      cntRange := hcnt
      high := fun h => absurd h hhigh
      low := fun h => absurd h hlow
      latch := fun h => absurd h hlatch
      bit := fun h => absurd h (not_or.mpr ⟨hhigh, hlow⟩) }

/-- A count below 16 or below `T_RESET_CYC` fits in `CNT`. -/
theorem lt_two_pow_cntWidth {p : Params} {c : Nat} (h : c < 16 ∨ c < p.tResetCyc) : c < 2 ^ p.cntWidth := by
  obtain ⟨hreset, -, hsixteen⟩ := cntFormula_covers p
  have hwidth := two_pow_cntFormula_le p
  omega

theorem highCycles_pos (c : Bool) : 0 < highCycles c := by cases c <;> decide

theorem lowCycles_pos (c : Bool) : 0 < lowCycles c := by cases c <;> decide

theorem highCycles_le (c : Bool) : highCycles c ≤ 16 := by cases c <;> decide

theorem lowCycles_le (c : Bool) : lowCycles c ≤ 18 := by cases c <;> decide

theorem State.FrameInv.symbolStart (hform : Memory.wf s.fb) (hrange : ∀ c ∈ s.fb, c.1 < s.par.fbLen) {k : Nat}
    (hk : k < s.par.fbLen) (j : BitVec 3) : (s.symbolStart k j).FrameInv := by
  have hcnt : (s.symbolStart k j).cnt < highCycles (s.symbolStart k j).curBit := Nat.sub_lt (highCycles_pos _) one_pos
  exact
    { fbForm := hform
      fbRange := hrange
      byteRange := hk
      line := iff_of_true rfl rfl
      cntRange := lt_two_pow_cntWidth (.inl (hcnt.trans_le (highCycles_le _)))
      high := fun _ => hcnt
      low := nofun
      latch := nofun
      bit := fun _ => rfl }

theorem State.FrameInv.latchStart (hform : Memory.wf s.fb) (hrange : ∀ c ∈ s.fb, c.1 < s.par.fbLen)
    (hbyte : s.byteIdx < s.par.fbLen) (hline : s.dout = false) (hpar : s.par.wellFormed) : s.latchStart.FrameInv := by
  have hreset : Config.tResetMin ≤ s.par.tResetCyc := Params.tResetMin_le_tResetCyc hpar
  have hcnt : s.par.tResetCyc - 1 < s.par.tResetCyc := by unfold Config.tResetMin at hreset; omega
  exact
    { fbForm := hform
      fbRange := hrange
      byteRange := hbyte
      line := by simp [State.latchStart, hline]
      cntRange := lt_two_pow_cntWidth (.inr hcnt)
      high := nofun
      low := nofun
      latch := fun _ => hcnt
      bit := by simp [State.latchStart] }

/-- A cycle of a phase that goes on. -/
theorem State.FrameInv.tick (hi : s.FrameInv) (n : Nat) : ({ s.record n with cnt := s.cnt - 1 } : State).FrameInv where
  fbForm := hi.fbForm
  fbRange := hi.fbRange
  byteRange := hi.byteRange
  line := hi.line
  cntRange := (Nat.sub_le _ _).trans_lt hi.cntRange
  high h := (Nat.sub_le _ _).trans_lt (hi.high h)
  low h := (Nat.sub_le _ _).trans_lt (hi.low h)
  latch h := (Nat.sub_le _ _).trans_lt (hi.latch h)
  bit := hi.bit

/-- The falling edge within a symbol: `CUR_BIT` stays. -/
theorem State.FrameInv.fall (hi : s.FrameInv) (hpar : s.par.wellFormed) (hseq : s.seq = .txHigh) (n : Nat) :
    ({ s.record n with dout := false, cnt := lowCycles s.curBit - 1, seq := .txLow } : State).FrameInv := by
  have hreset : Config.tResetMin ≤ s.par.tResetCyc := Params.tResetMin_le_tResetCyc hpar
  have hlow : lowCycles s.curBit ≤ 18 := lowCycles_le s.curBit
  exact
    { hi with
      line := by simp
      cntRange := lt_two_pow_cntWidth (.inr (by unfold Config.tResetMin at hreset; simp only [State.record_par]; omega))
      high := nofun
      low := fun _ => Nat.sub_lt (lowCycles_pos _) one_pos
      latch := nofun
      bit := fun _ => hi.bit (.inl hseq) }

/-- Zeroing bytes of the frame buffer keeps its form and its range. -/
theorem Memory.foldl_write_zero {n : Nat} {ks : List Nat} (hks : ∀ k ∈ ks, k < n) {m : Memory} (hform : Memory.wf m)
    (hrange : ∀ c ∈ m, c.1 < n) :
    Memory.wf (ks.foldl (fun m k => Memory.write m k 0#8) m) ∧
      ∀ c ∈ ks.foldl (fun m k => Memory.write m k 0#8) m, c.1 < n := by
  induction ks generalizing m with
  | nil => exact ⟨hform, hrange⟩
  | cons k ks ih =>
    obtain ⟨hk, htail⟩ := List.forall_mem_cons.mp hks
    exact ih htail (Memory.wf_write hform k 0#8) (Memory.range_write hrange hk 0#8)

theorem State.FrameInv.clearFb (hi : s.FrameInv) :
    Memory.wf s.clearFb.fb ∧ ∀ c ∈ s.clearFb.fb, c.1 < s.par.fbLen := by
  rw [State.clearFb_eq]
  exact Memory.foldl_write_zero (fun _ => List.mem_range.mp) hi.fbForm hi.fbRange

theorem State.FrameInv.storeColor (hi : s.FrameInv) {led : Nat} (hled : led < s.par.n) (r g b : Byte) :
    Memory.wf (s.storeColor led r g b).fb ∧ ∀ c ∈ (s.storeColor led r g b).fb, c.1 < s.par.fbLen := by
  obtain ⟨h0, h1, h2⟩ := Params.ledOffsets_lt_fbLen hled
  rw [State.storeColor_eq]
  exact ⟨Memory.wf_write (Memory.wf_write (Memory.wf_write hi.fbForm _ _) _ _) _ _,
    Memory.range_write (Memory.range_write (Memory.range_write hi.fbRange h0 _) h1 _) h2 _⟩

theorem Move.keeps_frameInv (h : Move s g u) (hpar : s.par.wellFormed) (hi : s.FrameInv) : u.FrameInv := by
  have hlen : 0 < s.par.fbLen := hi.byteRange.pos
  have hstore : g.afterStore.transmitting = false := by cases g <;> rfl
  have hcnt1 : s.cnt - 1 < 2 ^ s.par.cntWidth := (Nat.sub_le _ _).trans_lt hi.cntRange
  have hcnt0 : 0 < 2 ^ s.par.cntWidth := hi.cntRange.pos
  have hlow {q : Seq} (hseq : s.seq = q) (hq : q ≠ .txHigh) : s.dout = false := hi.dout_eq_false (hseq ▸ hq)
  cases h with
  | write hseq =>
    exact .of_silent hi.fbForm hi.fbRange hi.byteRange (hlow hseq nofun) (tSettleCyc_fits _) rfl
  | settle hseq =>
    exact .of_silent hi.fbForm hi.fbRange hi.byteRange (hlow hseq nofun) hcnt1 (by rw [hseq]; rfl)
  | settled hseq | cleared hseq | timeout hseq | stored hseq =>
    exact .of_silent hi.fbForm hi.fbRange hi.byteRange (hlow hseq nofun) hi.cntRange rfl
  | retry hseq | illegal hseq =>
    exact .of_silent hi.fbForm hi.fbRange hi.byteRange (hlow hseq nofun) hi.cntRange (by rw [hseq]; rfl)
  | failed | wait => exact hi
  | clear hseq =>
    exact .of_silent hi.clearFb.1 hi.clearFb.2 hi.byteRange (hlow hseq nofun) hi.cntRange hstore
  | setNegative hseq | setTooLarge hseq =>
    exact .of_silent hi.fbForm hi.fbRange hi.byteRange (hlow hseq nofun) hi.cntRange hstore
  | setValid hseq _ _ _ hidx =>
    obtain ⟨hform, hrange⟩ := hi.storeColor hidx _ _ _
    exact .of_silent hform hrange hi.byteRange (hlow hseq nofun) hi.cntRange hstore
  | transmit =>
    exact .of_silent hi.fbForm hi.fbRange (Nat.sub_lt hlen one_pos) rfl hcnt0 rfl
  | frameStart => exact .symbolStart hi.fbForm hi.fbRange hlen _
  | tick => exact hi.tick _
  | fall hseq => exact hi.fall hpar hseq _
  | lowToSymbol _ _ _ hk => exact .symbolStart (s := (s.record _).sym _) hi.fbForm hi.fbRange hk _
  | lowToLatch hseq => exact .latchStart hi.fbForm hi.fbRange hi.byteRange (hlow hseq nofun) hpar
  | latched hseq => exact .of_silent hi.fbForm hi.fbRange hi.byteRange (hlow hseq nofun) hi.cntRange rfl
  | pulseToSymbol _ _ _ hk => exact .symbolStart (s := s.pulseBit _) hi.fbForm hi.fbRange hk _
  | pulseToLatch => exact .latchStart hi.fbForm hi.fbRange hi.byteRange rfl hpar
  | latch => exact .of_silent hi.fbForm hi.fbRange hi.byteRange rfl hcnt0 rfl

theorem Move.keeps_inv (h : Move s g u) (hi : Inv s) : Inv u := by
  obtain ⟨hclock, hframe⟩ := (inv_iff s).mp hi
  exact (inv_iff u).mpr ⟨h.keeps_clockInv hclock, h.keeps_frameInv hclock.par hframe⟩

/-! ### Sampling and reset -/

/-- The invariant says nothing of what sampling writes. -/
theorem Inv.sample (hi : Inv u) (s : State) : Inv (u.sample s) := { hi with }

/-- An allowed bound is not used up before the first retry (R95). -/
theorem boundUsedUp_zero {bound : RetryBound} (h : bound.allowed = true) : boundUsedUp bound 0 = false := by
  cases bound with
  | inf => rfl
  | finite b =>
    simp only [RetryBound.allowed, decide_eq_true_eq] at h
    exact decide_eq_false (by omega)

/-- Reset establishes the invariant for every build in range (R35, R170). -/
theorem inv_resetAt {p : Params} (hp : p.wellFormed) (r : Nat) : Inv (State.resetAt p r) := by
  have hlen : 0 < p.fbLen := by
    obtain ⟨hn, -, -, -, -⟩ := hp
    unfold Params.fbLen
    omega
  have hbound : boundUsedUp p.maxRetry 0 = false := by
    obtain ⟨-, -, -, hretry, -⟩ := hp
    exact boundUsedUp_zero hretry
  refine (inv_iff _).mpr ⟨?_, .of_silent (Memory.wf_resetAt p r) nofun hlen rfl (Nat.two_pow_pos _) rfl⟩
  exact
    { par := hp
      settle := nofun
      clockReset := fun _ => ⟨rfl, rfl⟩
      clockTarget := fun h => absurd rfl h
      errEarly := fun _ => rfl
      errTimeout := by simp [State.resetAt]
      retryZero := fun _ => rfl
      retryLeft := fun _ => hbound
      retryFailed := nofun }

theorem Inv.takeReset (hi : Inv s) : Inv s.takeReset := { inv_resetAt hi.par (s.resets + 1) with }

theorem params_wellFormed : Config.params.wellFormed := by
  have hn : Config.chosen.n % Config.nMax < Config.nMax := Nat.mod_lt _ (by decide)
  have hretry : Config.params.maxRetry.allowed = true := by
    unfold Config.params
    cases Config.chosen.maxRetry with
    | inf => rfl
    | finite b => exact decide_eq_true (Nat.le_add_left 1 b)
  exact ⟨Nat.le_add_left _ _, hn, le_rfl, hretry, Nat.le_add_left _ _⟩

end

/-! ### The settled statements -/

/-- Settles O53: reset establishes the invariant, every move of the operation level keeps both its parts, and it does
not mention what sampling writes. -/
theorem stepKeepsInvariant : Obligations.StepKeepsInvariant := by
  intro s t hi h
  rcases step_cases h with ⟨-, rfl⟩ | ⟨-, u, hu, rfl⟩
  · exact hi.takeReset
  · exact (hu.keeps_inv hi).sample s

/-- Settles O54: as for a step, with the moves of the cycle level. -/
theorem edgeKeepsInvariant : Obligations.EdgeKeepsInvariant := by
  intro s t hi h
  rcases edge_cases h with ⟨-, rfl⟩ | ⟨-, u, hu, rfl⟩
  · exact hi.takeReset
  · exact (hu.keeps_inv hi).sample s

/-- Settles O52: the model's parameters are in range, and its working registers stand at 0. -/
theorem invariantAtReset : Obligations.InvariantAtReset := inv_resetAt params_wellFormed 0

end Sys2Proof.Machine
end

section
/-! Rules about the whole machine, each read off the moves: what the core keeps (R5, R32, R99, R153), what records a
fault (R146), what writes the frame buffer (R21), what an edge records (R122), and the transition table (R127). -/

namespace Sys2Proof.Machine

section
variable {s t u : State} {g : Grain}

/-! ### The parameters, the inputs to come and the program -/

theorem Move.keeps_outside (h : Move s g u) : u.outside = s.outside := by cases h <;> rfl

/-! ### Faults -/

/-- A move of `s` to `u` that records a fault for a reason of R146. -/
def State.RecordsFault (s u : State) : Prop :=
  (u.err = 1#2 ∧ s.seq = .cfgFclr ∧ u.seq = .cfgFailed ∧ boundUsedUp s.par.maxRetry (s.retryCnt + 1) = true) ∨
    (s.seq = .idle ∧ ∃ w, s.input.cmd = some w ∧
      ((u.err = 2#2 ∧ opField w = 0b10#2 ∧ (s.par.n : Int) ≤ (idxField w).toInt) ∨
        (u.err = 3#2 ∧ opField w = 0b00#2)))

/-- A move leaves `ERR`, or it records the first fault (R150). -/
theorem Move.err_cases (h : Move s g u) : u.err = s.err ∨ (s.err = 0#2 ∧ s.RecordsFault u) := by
  by_cases herr : s.err = 0#2
  · cases h with
    | timeout hseq _ hused => exact .inr ⟨herr, .inl ⟨if_pos herr, hseq, rfl, hused⟩⟩
    | illegal hseq hcmd hop => exact .inr ⟨herr, .inr ⟨hseq, _, hcmd, .inr ⟨if_pos herr, hop⟩⟩⟩
    | setTooLarge hseq hcmd hop hidx => exact .inr ⟨herr, .inr ⟨hseq, _, hcmd, .inl ⟨if_pos herr, hop, hidx⟩⟩⟩
    | _ => exact .inl rfl
  · refine .inl ?_
    cases h with
    | timeout | illegal | setTooLarge => exact if_neg herr
    | _ => rfl

/-! ### The frame buffer -/

theorem Move.fb_cases (h : Move s g u) :
    u.fb = s.fb ∨ (s.seq = .idle ∧ ∃ w, s.input.cmd = some w ∧ (opField w = 0b01#2 ∨ opField w = 0b10#2)) := by
  cases h with
  | clear hseq hcmd hop => exact .inr ⟨hseq, _, hcmd, .inl hop⟩
  | setValid hseq hcmd hop => exact .inr ⟨hseq, _, hcmd, .inr hop⟩
  | _ => exact .inl rfl

/-! ### The histories -/

/-- Appending segments appends their levels. -/
theorem levels_isPrefix_append (w w' : List Segment) : levels w <+: levels (w ++ w') :=
  ⟨levels w', (levels_append w w').symm⟩

theorem State.levels_isPrefix_record (s : State) (n : Nat) : levels s.wire <+: levels (s.record n).wire :=
  ⟨[s.dout], (s.levels_record n).symm⟩

theorem Move.levels_isPrefix (h : Move s g u) : levels s.wire <+: levels u.wire := by
  cases h with
  | transmit => exact levels_isPrefix_append _ _
  | tick | fall | lowToSymbol | lowToLatch | latched => exact s.levels_isPrefix_record _
  | pulseToSymbol | pulseToLatch => exact (congrArg State.wire (s.pulseBit_eq _)) ▸ levels_isPrefix_append _ _
  | latch => exact levels_isPrefix_append _ _
  | _ => exact List.prefix_rfl

theorem Move.syms_isPrefix (h : Move s g u) : s.syms <+: u.syms := by
  cases h with
  | transmit | lowToSymbol | lowToLatch | latched | pulseToSymbol | pulseToLatch | latch => exact List.prefix_append _ _
  | _ => exact List.prefix_rfl

/-- At the cycle level each cycle of a transmission is recorded once and no other cycle (R121, R122). -/
theorem Move.levels_of_cycle (h : Move s .cycle u) :
    levels u.wire = if s.seq.transmitting then levels s.wire ++ [s.dout] else levels s.wire := by
  cases h with
  | tick htx => exact (s.levels_record _).trans (by rw [if_pos htx])
  | fall hseq | lowToSymbol hseq | lowToLatch hseq | latched hseq =>
    rw [hseq]
    exact s.levels_record _
  | write hseq | settle hseq | settled hseq | cleared hseq | retry hseq | timeout hseq | failed hseq | wait hseq
  | illegal hseq | clear hseq | setNegative hseq | setValid hseq | setTooLarge hseq | frameStart hseq | stored hseq =>
    rw [hseq]
    rfl

/-! ### The transition table -/

/-- A phase or a wait with cycles to come goes on. -/
theorem nextSeq_of_cnt_pos (hseq : s.seq = .cfgSettle ∨ s.seq.transmitting = true) (hcnt : 0 < s.cnt) :
    nextSeq s = s.seq := by
  have hne : s.cnt ≠ 0 := Nat.ne_of_gt hcnt
  unfold nextSeq
  cases hq : s.seq <;> simp [hq, Seq.transmitting, hne, hcnt] at hseq ⊢

/-- Every move of the cycle level goes where its row of R127 says. -/
theorem Move.seq_of_cycle (h : Move s .cycle u) : u.seq = nextSeq s := by
  cases h with
  | settle hseq hcnt => exact (nextSeq_of_cnt_pos (.inl hseq) hcnt).symm
  | tick htx hcnt => exact (nextSeq_of_cnt_pos (.inr htx) hcnt).symm
  | lowToSymbol hseq hcnt hplace =>
    have hlast : ¬(s.bitIdx = 0#3 ∧ s.par.fbLen - 1 ≤ s.byteIdx) := by
      rw [← State.nextPlace_eq_none_iff, hplace]
      nofun
    simp only [nextSeq, hseq, hcnt, lt_irrefl, if_false, hlast]
    rfl
  | lowToLatch hseq hcnt hplace =>
    simp only [nextSeq, hseq, hcnt, lt_irrefl, if_false, if_pos (State.nextPlace_eq_none_iff.mp hplace)]
    rfl
  | _ => simp [nextSeq, Grain.afterStore, State.symbolStart, *]

end

/-! ### The settled statements -/

/-- Settles O51: no move writes the parameters, and neither do sampling and reset. -/
theorem parametersNeverChange : Obligations.ParametersNeverChange := by
  intro s t h
  rcases next_cases h with ⟨-, rfl⟩ | ⟨-, g, u, hu, rfl⟩
  · rfl
  · exact congrArg Prod.fst hu.keeps_outside

/-- Settles O48: the moves append to the histories, reset keeps them. -/
theorem historiesOnlyGrow : Obligations.HistoriesOnlyGrow := by
  intro s t h
  rcases next_cases h with ⟨-, rfl⟩ | ⟨-, g, u, hu, rfl⟩
  · exact ⟨List.prefix_rfl, List.prefix_rfl⟩
  · exact ⟨hu.levels_isPrefix, hu.syms_isPrefix⟩

/-- Settles O24: the moves from a stable clock keep it and its registers, and sampling only sets the flag. -/
theorem stableUntilReset : Obligations.StableUntilReset := by
  intro s t hclk hr h
  obtain ⟨g, u, hu, rfl⟩ := next_cases_of_released hr h
  obtain ⟨hstable, hsrc, hdiv, hretry, hosc, -⟩ := hu.keeps_clock ((State.clkStable_iff s).mp hclk)
  exact ⟨(State.clkStable_iff _).mpr hstable, hsrc, hdiv, hretry, by rw [State.sample_oscFault, hosc]⟩

/-- Settles O44: a move that records a fault begins with none recorded. -/
theorem firstFaultKeptUntilReset : Obligations.FirstFaultKeptUntilReset := by
  intro s t herr hr h
  obtain ⟨g, u, hu, rfl⟩ := next_cases_of_released hr h
  exact hu.err_cases.resolve_right fun ⟨hzero, _⟩ => herr hzero

/-- Settles O45: reset clears `ERR`, and a move that changes it records a fault of the list. -/
theorem faultsOnlyAsListed : Obligations.FaultsOnlyAsListed := by
  intro s t herr ht h
  rcases next_cases h with ⟨-, rfl⟩ | ⟨-, g, u, hu, rfl⟩
  · exact absurd rfl ht
  · rcases hu.err_cases with he | ⟨-, hrec⟩
    · exact absurd (he.trans herr) ht
    · exact hrec

/-- Settles O46: of the moves only those of `CLEAR` and `SET` write `FB`. -/
theorem bufferWrittenOnlyByClearAndSet : Obligations.BufferWrittenOnlyByClearAndSet := by
  intro s t hr h hfb
  obtain ⟨g, u, hu, rfl⟩ := next_cases_of_released hr h
  exact hu.fb_cases.resolve_left hfb

/-- Settles O49: sampling records nothing, so the cycle is the one the move records. -/
theorem edgeRecordsTheLine : Obligations.EdgeRecordsTheLine := by
  intro s t h hr
  rcases edge_cases h with ⟨hr', -⟩ | ⟨-, u, hu, rfl⟩
  · exact absurd (hr.symm.trans hr') (by decide)
  · exact hu.levels_of_cycle

/-- Settles O50: reset leads to `CFG_WRITE`, a move where its row of the table says. -/
theorem edgeFollowsTransitionTable : Obligations.EdgeFollowsTransitionTable := by
  intro s t h
  rcases edge_cases h with ⟨hr, rfl⟩ | ⟨hr, u, hu, rfl⟩ <;> rw [hr]
  · rfl
  · exact hu.seq_of_cycle

end Sys2Proof.Machine
end

section
/-! The step and the edge as a whole: that they answer (R150, R151), what they run (R7, R73, R98), what a reset gives
(R170), and that an offer to a core that is not ready changes nothing (R73, R178). -/

namespace Sys2Proof.Machine

section
variable {s t : State}

/-! ### Every operation answers, and under the invariant the sequencer does -/

theorem exec_answers (i : Instr) (s : State) : ∃ t, exec i s = .next t := by
  cases i <;> exact ⟨_, rfl⟩

theorem andThen_answers {o : Host.Outcome State Fault Refusal} {f : State → Host.Outcome State Fault Refusal}
    (ho : ∃ t, o = .next t) (hf : ∀ t, o = .next t → ∃ u, f t = .next u) : ∃ u, andThen o f = .next u := by
  obtain ⟨t, rfl⟩ := ho
  exact hf t rfl

theorem State.beginSymbol_answers {k : Nat} (j : BitVec 3) (hk : k < s.par.fbLen) :
    ∃ t, s.beginSymbol k j = .next t := ⟨_, s.beginSymbol_of_lt j hk⟩

/-- With `BYTE_IDX` in its range, the next bit lies in a byte that exists. -/
theorem State.nextSymbol_answers (h : s.byteIdx < s.par.fbLen) : ∃ t, s.nextSymbol = .next t := by
  rcases s.nextSymbol_cases with ⟨-, e⟩ | ⟨-, hbyte, e⟩ | ⟨-, -, e⟩ <;> rw [e]
  · exact State.beginSymbol_answers _ h
  · exact State.beginSymbol_answers _ (by omega)
  · exact ⟨_, rfl⟩

theorem State.edgeLow_answers (h : s.byteIdx < s.par.fbLen) : ∃ t, s.edgeLow = .next t := by
  rcases s.edgeLow_cases with ⟨-, e⟩ | ⟨-, e⟩ <;> rw [e]
  · exact ⟨_, rfl⟩
  · exact State.nextSymbol_answers h

theorem sequencerEdge_answers (h : s.byteIdx < s.par.fbLen) : ∃ t, sequencerEdge s = .next t := by
  unfold sequencerEdge
  cases s.seq with
  | txLow => exact State.edgeLow_answers h
  | _ => exact ⟨_, rfl⟩

theorem accept_answers (i : Instr) (h : 0 < s.par.fbLen) : ∃ t, accept i s = .next t := by
  cases i with
  | transmit => exact State.beginSymbol_answers _ h
  | _ => exact ⟨_, rfl⟩

theorem edgeBody_answers (h : s.byteIdx < s.par.fbLen) : ∃ t, edgeBody s = .next t := by
  cases hacc : s.accepted with
  | none => rw [edgeBody_of_not_accepted hacc]; exact sequencerEdge_answers h
  | some i => rw [edgeBody_of_accepted hacc]; exact accept_answers i h.pos

/-- A bit symbol leaves `BYTE_IDX`, so the advance after it finds it in range; after a command there is no advance. -/
theorem stepBody_answers (h : s.byteIdx < s.par.fbLen) : ∃ t, stepBody s = .next t := by
  cases hcur : s.current with
  | none => rw [stepBody_of_no_current hcur]; exact sequencerEdge_answers h
  | some i =>
    rw [stepBody_of_current hcur]
    refine andThen_answers (exec_answers i s) fun t ht => ?_
    cases i with
    | bit0 | bit1 =>
      obtain rfl := Host.Outcome.next.inj ht
      exact State.nextSymbol_answers h
    | _ => exact ⟨_, rfl⟩

/-! ### With reset released and with reset asserted -/

theorem step_of_released (hr : s.input.rstN = true) :
    step s = andThen (stepBody s) (fun t => .next (t.sample s)) := if_pos hr

theorem edge_of_released (hr : s.input.rstN = true) :
    edge s = andThen (edgeBody s) (fun t => .next (t.sample s)) := if_pos hr

theorem step_of_reset (hr : s.input.rstN = false) : step s = .next s.takeReset := by simp [step, hr]

theorem edge_of_reset (hr : s.input.rstN = false) : edge s = .next s.takeReset := by simp [edge, hr]

theorem step_answers (h : s.byteIdx < s.par.fbLen) : ∃ t, step s = .next t := by
  cases hr : s.input.rstN with
  | false => exact ⟨_, step_of_reset hr⟩
  | true => rw [step_of_released hr]; exact andThen_answers (stepBody_answers h) fun _ _ => ⟨_, rfl⟩

theorem edge_answers (h : s.byteIdx < s.par.fbLen) : ∃ t, edge s = .next t := by
  cases hr : s.input.rstN with
  | false => exact ⟨_, edge_of_reset hr⟩
  | true => rw [edge_of_released hr]; exact andThen_answers (edgeBody_answers h) fun _ _ => ⟨_, rfl⟩

/-! ### The program through a step -/

/-- Whatever a step or an edge with reset released does, the program behind it is the one that sampling leaves. -/
theorem prog_of_next_of_released (hr : s.input.rstN = true) (h : step s = .next t ∨ edge s = .next t) :
    t.prog = s.progAfter := by
  obtain ⟨g, u, -, rfl⟩ := next_cases_of_released hr h
  rfl

theorem prog_of_next_of_reset (hr : s.input.rstN = false) (h : step s = .next t ∨ edge s = .next t) :
    t.prog = s.prog := by
  rcases next_cases h with ⟨-, rfl⟩ | ⟨hr', -⟩
  · rfl
  · exact absurd (hr'.symm.trans hr) (by decide)

/-! ### An offer to a core that is not ready -/

theorem exec_of_not_idle (hseq : s.seq ≠ .idle) {i : Instr} (hi : i.wellFormed = true) : exec i s = .next s := by
  cases i with
  | reserved rest => rw [exec_reserved, State.whenReady_of_not_idle hseq]
  | clear ignored => exact exec_clear_of_not_idle hseq ignored
  | set idx r g b => rw [exec_set, State.whenReady_of_not_idle hseq]
  | transmit ignored => rw [exec_transmit, State.whenReady_of_not_idle hseq]
  | clkcfg => exact absurd hi (by decide)
  | bit0 => exact absurd hi (by decide)
  | bit1 => exact absurd hi (by decide)
  | reset => exact absurd hi (by decide)

theorem State.current_withEnv_of_not_idle (hseq : s.seq ≠ .idle) (e : List Input) :
    (s.withEnv e).current = s.current := by
  unfold State.current
  rw [State.withEnv_seq]
  cases hq : s.seq with
  | idle => exact absurd hq hseq
  | _ => rfl

/-- Listed inputs that differ in the command only agree off the command, the program being held. -/
theorem State.agreesOffCommand_of_not_idle {e : List Input} (hseq : s.seq ≠ .idle)
    (hrst : (s.withEnv e).input.rstN = s.input.rstN)
    (hosc : (s.withEnv e).input.oscFaultSet = s.input.oscFaultSet) (htail : e.tail = s.env.tail) :
    s.AgreesOffCommand e where
  rstN := hrst
  oscFaultSet := hosc
  tail := htail
  progAfter := (State.progAfter_of_not_idle (s := s.withEnv e) hseq).trans (State.progAfter_of_not_idle hseq).symm

theorem step_withEnv_of_not_idle {e : List Input} (hseq : s.seq ≠ .idle) (h : s.AgreesOffCommand e) :
    step (s.withEnv e) = step s :=
  step_withEnv h (congrArg _ (State.current_withEnv_of_not_idle hseq e))

theorem edge_withEnv_of_not_idle {e : List Input} (hseq : s.seq ≠ .idle) (h : s.AgreesOffCommand e) :
    edge (s.withEnv e) = edge s :=
  edge_withEnv h <| congrArg _ <|
    (State.accepted_of_not_idle (s := s.withEnv e) hseq).trans (State.accepted_of_not_idle hseq).symm

end

/-! ### The settled statements -/

/-- Settles O12: the constructors of the operations each answer with the state they define. -/
theorem everyOperationAnswers : Obligations.EveryOperationAnswers := exec_answers

/-- Settles O55: the invariant has `BYTE_IDX` in range, which is all that a step or an edge needs to answer. -/
theorem invariantNeverStops : Obligations.InvariantNeverStops :=
  fun _ hi => ⟨step_answers hi.byteRange, edge_answers hi.byteRange⟩

/-- Settles O7: the program behind a step is the one that sampling leaves, which takes a word only at `IDLE` with none
listed; a reset leaves it. -/
theorem programWordHeldUntilAccepted : Obligations.ProgramWordHeldUntilAccepted := by
  intro s t h
  have hprog (hkeep : s.progAfter = s.prog) : t.prog = s.prog := by
    cases hr : s.input.rstN with
    | false => exact prog_of_next_of_reset hr h
    | true => exact (prog_of_next_of_released hr h).trans hkeep
  refine ⟨State.input_cmd_of_unlisted, fun hor => ?_, fun w hw => ?_, fun hready hr hlist => ?_⟩
  · rcases hor with hready | hr
    · refine hprog (State.progAfter_of_not_idle fun hseq => ?_)
      rw [(State.cmdReady_iff s).mpr hseq] at hready
      exact absurd hready (by decide)
    · exact prog_of_next_of_reset hr h
  · exact ⟨State.input_cmd_of_listed hw, hprog (State.progAfter_of_listed hw)⟩
  · exact (prog_of_next_of_released hr h).trans (State.progAfter_of_idle ((State.cmdReady_iff s).mp hready) hlist)

/-- Settles O9: the step's body is the selected operation and its advance. -/
theorem stepRunsCurrentOperation : Obligations.StepRunsCurrentOperation := by
  intro s i hr hcur
  rw [step_of_released hr, stepBody_of_current hcur]

/-- Settles O10: at `IDLE` the selected operation is the decoded word, and nothing follows a command. -/
theorem offeredWordRunsAtIdle : Obligations.OfferedWordRunsAtIdle := by
  intro s w hr hseq hcmd
  refine ⟨by rw [State.current_of_idle hseq, hcmd, Option.map_some], ?_⟩
  rw [step_of_released hr, stepBody_of_idle hseq hcmd]

/-- Settles O14: both levels take the reset, whose fields are those of `State.takeReset`. -/
theorem resetInputOverrides : Obligations.ResetInputOverrides := by
  intro s hr
  have hseq : s.takeReset.seq = .cfgWrite := rfl
  have hclk : s.takeReset.clkState = .unconfigured := (State.clkState_eq_unconfigured_iff _).mpr hseq
  have hready : s.takeReset.cmdReady = false := by simp [State.cmdReady]
  exact ⟨s.takeReset, step_of_reset hr, edge_of_reset hr, hseq, rfl, rfl, rfl, rfl, rfl, rfl,
    State.fbByte_of_fb_nil rfl, rfl, rfl, rfl, rfl, hready, hclk, State.fSys_of_unconfigured hclk⟩

/-- Settles O17: the three cases of `State.clkIterate_cases`, told apart by the answer and the bound. -/
theorem clkcfgLoopIteration : Obligations.ClkcfgLoopIteration := by
  intro s hseq
  rw [exec_clkcfg_of_cfgFclr hseq]
  rcases s.clkIterate_cases s.input.oscFaultSet with ⟨hosc, e⟩ | ⟨hosc, hleft, e⟩ | ⟨hosc, hused, e⟩ <;> rw [e]
  · simp [hosc]
  · simp [hosc, hleft]
  · simp [hosc, hused]

/-- Settles O18: neither `CFG_FAILED` nor a stable state is one of the three in which `CLKCFG` acts. -/
theorem clkcfgRunsOnce : Obligations.ClkcfgRunsOnce := by
  intro s h
  rcases h with h | h
  · exact exec_clkcfg_of_over (by simp [h]) (by simp [h]) (by simp [h])
  · obtain ⟨hwrite, hsettle, hfclr, -⟩ := State.seq_of_stable ((State.clkStable_iff s).mp h)
    exact exec_clkcfg_of_over hwrite hsettle hfclr

/-- Settles O23: `IDLE`, where alone a command is accepted, is a stable state. -/
theorem noCommandBeforeStable : Obligations.NoCommandBeforeStable := by
  intro s h
  have hidle : s.seq ≠ .idle := fun hseq =>
    (State.clkStable_eq_false_iff s).mp h ((State.clkState_eq_stable_iff s).mpr (.inl hseq))
  exact ⟨by simp [State.cmdReady, hidle], State.accepted_of_not_idle hidle, State.current_of_not_stable h⟩

/-- Settles O43: off `IDLE` a command is held, the offer does not reach the selected operation, and the program is
held as well. -/
theorem commandHeldWhenNotReady : Obligations.CommandHeldWhenNotReady := by
  refine fun s hseq => ⟨fun i hi => exec_of_not_idle hseq hi, fun c d osc rest => ?_⟩
  have hbusy : ({ s with env := ⟨true, d, osc⟩ :: rest } : State).seq ≠ .idle := hseq
  have hports := State.agreesOffCommand_of_not_idle (e := ⟨true, c, osc⟩ :: rest) hbusy rfl rfl rfl
  exact ⟨step_withEnv_of_not_idle hbusy hports, edge_withEnv_of_not_idle hbusy hports⟩

end Sys2Proof.Machine
end

section
/-! Values derived from the operands and the parameters: the ranges of the index (R139), the widths of the working
registers (R28), the system clock (R26), the receiver's windows (R111), and the placed rows of the opcode table. -/

namespace Sys2Proof

/-! ### The widths of the working registers -/

theorem Params.byteIdxWidth_le_iff (p : Params) {w : Nat} (hw : 1 ≤ w) :
    3 * p.n ≤ 2 ^ w ↔ p.byteIdxWidth ≤ w := by
  rw [Params.byteIdxWidth, max_le_iff, Nat.clog_le_iff_le_pow one_lt_two]
  exact (and_iff_right hw).symm

theorem Params.cntFormula_le_iff (p : Params) (w : Nat) :
    p.tResetCyc ≤ 2 ^ w ∧ p.tSettleCyc ≤ 2 ^ w ∧ 16 ≤ 2 ^ w ↔ p.cntFormula ≤ w := by
  rw [Params.cntFormula, Nat.clog_le_iff_le_pow one_lt_two, max_le_iff, max_le_iff]

theorem Params.cntWidth_of_lt {p : Params} (h : p.tSettleCyc < 2 ^ p.cntFormula) : p.cntWidth = p.cntFormula :=
  if_pos h

theorem Params.cntWidth_of_eq {p : Params} (h : p.tSettleCyc = 2 ^ p.cntFormula) : p.cntWidth = p.cntFormula + 1 :=
  if_neg h.not_lt

/-- R28's figure: 15 bits for the default latch period and a settle time of fewer than `2 ^ 15` cycles. -/
theorem Params.cntFormula_eq_fifteen {p : Params} (hreset : p.tResetCyc = 20000) (hsettle : p.tSettleCyc ≤ 32767) :
    p.cntFormula = 15 := by
  have hle : p.cntFormula ≤ 15 := (p.cntFormula_le_iff 15).mp ⟨by omega, by omega, by decide⟩
  have hgt : ¬p.cntFormula ≤ 14 := fun h => by
    obtain ⟨h14, -, -⟩ := (p.cntFormula_le_iff 14).mpr h
    omega
  omega

namespace Machine

/-! ### The placed rows -/

/-- A row is `CLKCFG`, the command of its word, or a waveform. -/
theorem decodeTableWord_cases {nbits w : Nat} {i : Instr} (h : decodeTableWord nbits w = some i) :
    i = .clkcfg ∨ i = decode (BitVec.ofNat 42 w) ∨ i = .bit0 ∨ i = .bit1 ∨ i = .reset := by
  unfold decodeTableWord decodeRow decodePort decodeWave at h
  split_ifs at h
  · exact .inl (Option.some.inj h).symm
  · exact .inr (.inl (Option.some.inj h).symm)
  · exact .inr (.inr (.inl (Option.some.inj h).symm))
  · exact .inr (.inr (.inr (.inl (Option.some.inj h).symm)))
  · exact .inr (.inr (.inr (.inr (Option.some.inj h).symm)))

section
variable {s : State}

/-- Whatever the command is, its word stands on the port of a core that is ready. -/
theorem State.placed_decode (s : State) (w : Nat) (v : CmdWord) :
    s.placed w (decode v) = { s with seq := .idle, env := offer (BitVec.ofNat 42 w) :: s.env } :=
  decode_induction (motive := fun i => s.placed w i = { s with seq := .idle, env := offer (BitVec.ofNat 42 w) :: s.env })
    v (fun _ => rfl) (fun _ => rfl) (fun _ _ _ _ => rfl) fun _ => rfl

theorem State.rstN_placed (s : State) (w : Nat) (i : Instr) : (s.placed w i).input.rstN = true := by
  cases i <;> rfl

/-- A micro-operation stands at its first cycle, a command on the port. -/
theorem State.current_placed {nbits w : Nat} {i : Instr} (hreset : 1 ≤ s.par.tResetCyc)
    (h : decodeTableWord nbits w = some i) : (s.placed w i).current = some i := by
  rcases decodeTableWord_cases h with rfl | rfl | rfl | rfl | rfl
  · rfl
  · rw [State.placed_decode, State.current_of_idle rfl, State.input_cmd_of_listed (w := BitVec.ofNat 42 w) rfl]
    rfl
  · rfl
  · rfl
  · have hcnt : s.par.tResetCyc - 1 + 1 = s.par.tResetCyc := Nat.sub_add_cancel hreset
    simp [State.current, State.placed, hcnt]

theorem State.withFetchWord_of_some {nbits w : Nat} {i : Instr} (h : decodeTableWord nbits w = some i) :
    s.withFetchWord nbits w = s.placed w i := by
  simp only [State.withFetchWord, State.placeRow, h]

/-! ### The clock and the waveforms -/

theorem State.fSys_of_stable (h : s.clkState = .stable) : s.fSys = Config.fTarget := by simp only [State.fSys, h]

/-- While the clock is changing, some positive frequency. -/
theorem State.fSys_pos (hfreq : 1 ≤ s.par.fReset) : 0 < s.fSys := by
  unfold State.fSys
  cases s.clkState with
  | unconfigured => exact hfreq
  | _ => exact Nat.succ_pos _

end

theorem within_self (a tol : Nat) : within a a tol = true := by simp [within]

/-- A high phase within less than 275 ns of one nominal length is not within the same tolerance of the other. -/
theorem within_high_unique {tol h : Nat} (htol : tol < 275) (h0 : within h 250 tol = true) :
    within h 800 tol = false := by
  simp only [within, Bool.and_eq_true, Bool.and_eq_false_iff, decide_eq_true_eq, decide_eq_false_iff_not] at *
  omega

/-! ### The settled statements -/

/-- Settles O11: the placed state of the row's operation selects it. -/
theorem placedRowIsRunNext : Obligations.PlacedRowIsRunNext := by
  intro s nbits w i hreset h
  rw [State.withFetchWord_of_some h]
  exact ⟨s.rstN_placed w i, State.current_placed hreset h⟩

/-- Settles O38: the three ranges exclude each other and leave no index out. -/
theorem indexRangesAndOffsets : Obligations.IndexRangesAndOffsets := by
  intro n idx hn
  have hoffset (hv : idx.toNat < n) :
      baseOffset idx.toNat + 2 ≤ 3 * n - 1 ∧ baseOffset idx.toNat + 2 ≤ 98300 ∧ 98300 < 2 ^ 17 := by
    unfold baseOffset
    omega
  rcases indexRange_cases n idx with ⟨h, e⟩ | ⟨h0, hs, hlt, e⟩ | ⟨h0, hs, hge, e⟩ <;> rw [e] <;>
    unfold signedIndex at *
  · refine ⟨by simp [h], ⟨fun hv => by omega, nofun⟩, ⟨fun hv => by omega, nofun⟩, nofun⟩
  · refine ⟨⟨fun hv => by omega, nofun⟩, ⟨fun _ => rfl, fun _ => by omega⟩, ⟨fun hv => by omega, nofun⟩,
      fun _ => hoffset hlt⟩
  · refine ⟨⟨fun hv => by omega, nofun⟩, ⟨fun hv => by omega, nofun⟩, ⟨fun _ => rfl, fun _ => by omega⟩, nofun⟩

/-- Settles O40: the widths are least exponents, and the invariant keeps both registers below them. -/
theorem registersFitTheirWidths : Obligations.RegistersFitTheirWidths := by
  refine ⟨fun s hi => ⟨byteIdx_fits hi.byteRange, hi.cntRange⟩,
    fun p _ => ⟨le_max_left _ _, fun w hw => Params.byteIdxWidth_le_iff p hw⟩, Params.cntFormula_le_iff, fun p h => ?_,
    fun p h => Params.cntWidth_of_eq h, fun p hreset hsettle => ?_⟩
  · exact Params.cntWidth_of_lt (lt_of_le_of_ne (cntFormula_covers p).2.1 h)
  · have h15 : p.cntFormula = 15 := Params.cntFormula_eq_fifteen hreset hsettle
    rw [Params.cntWidth_of_lt (by rw [h15]; omega), h15]

/-- Settles O42: the rows of `State.fSys`, of which only the first depends on the parameters. -/
theorem systemClockFrequency : Obligations.SystemClockFrequency := by
  intro s hp
  obtain ⟨-, -, -, -, hfreq⟩ := hp
  exact ⟨State.fSys_pos hfreq, State.fSys_of_unconfigured,
    fun h => State.fSys_of_stable ((State.clkStable_iff s).mp h)⟩

/-- Settles O28: the waveforms have the nominal lengths, and the windows of the two high phases do not meet. -/
theorem waveformsConform : Obligations.WaveformsConform := by
  refine ⟨fun tol => ⟨?_, ?_⟩, fun p hp => decide_eq_true (Params.le_cyclesToNs_tResetCyc hp),
    fun tol h l l' htol hboth => ?_⟩
  · exact Bool.and_eq_true_iff.mpr ⟨within_self 250 tol, within_self 900 tol⟩
  · exact Bool.and_eq_true_iff.mpr ⟨within_self 800 tol, within_self 450 tol⟩
  · obtain ⟨h0, h1⟩ := hboth
    have hfalse := within_high_unique (by omega) (Bool.and_eq_true_iff.mp h0).1
    exact absurd ((Bool.and_eq_true_iff.mp h1).1.symm.trans hfalse) (by decide)

end Machine

end Sys2Proof
end

section
/-! Runs of `CLKCFG` (R90 to R95) as records: what each stretch of it writes, with the inputs it consumes. -/

namespace Sys2Proof.Machine

section
variable {s t u : State}

/-! ### Inputs consumed -/

/-- The state after `k` inputs are consumed, with `OSC_FAULT` as they leave it (R25). -/
def State.consumed (s : State) (k : Nat) (osc : Bool) : State :=
  { s with oscFault := osc, env := s.env.drop k, edges := s.edges + k }

@[simp] theorem State.consumed_consumed (s : State) (j k : Nat) (o o' : Bool) :
    (s.consumed j o).consumed k o' = s.consumed (j + k) o' := by
  simp [State.consumed, List.drop_drop, Nat.add_assoc]

theorem State.released_consumed (h : s.released) (k : Nat) (osc : Bool) : (s.consumed k osc).released :=
  fun i hi => h i (List.mem_of_mem_drop hi)

theorem State.inputAt_consumed (s : State) (k : Nat) (osc : Bool) (j : Nat) :
    (s.consumed k osc).inputAt j = s.inputAt (k + j) := by
  simp [State.inputAt, State.consumed, Nat.add_assoc]

theorem State.input_oscFaultSet_eq (s : State) : s.input.oscFaultSet = (s.inputAt 0).oscFaultSet :=
  s.inputAt_zero ▸ s.input_oscFaultSet

/-- The oscillator's input after `k` inputs are consumed. -/
theorem State.oscFaultSet_consumed (s : State) (k : Nat) (osc : Bool) :
    (s.consumed k osc).input.oscFaultSet = (s.inputAt k).oscFaultSet := by
  rw [State.input_oscFaultSet_eq, State.inputAt_consumed, Nat.add_zero]

/-- Off `IDLE` sampling only consumes an input: the program is held. -/
theorem State.sample_eq_consumed (hseq : s.seq ≠ .idle) (ht : t.outside = s.outside) :
    t.sample s = t.consumed 1 (t.oscFault || s.input.oscFaultSet) := by
  obtain ⟨-, henv, hprog, hedges, -⟩ : t.par = s.par ∧ t.env = s.env ∧ t.prog = s.prog ∧ t.edges = s.edges ∧
      t.resets = s.resets := by simpa using ht
  rw [State.sample, State.consumed, State.progAfter_of_not_idle hseq, henv, hprog, hedges, List.drop_one]

/-! ### Steps and runs of `CLKCFG` -/

theorem State.not_idle_of_not_stable (h : s.clkStable = false) : s.seq ≠ .idle := fun hseq =>
  (State.clkStable_eq_false_iff s).mp h ((State.clkState_eq_stable_iff s).mpr (.inl hseq))

/-- Before the clock is stable, with reset released, a step is one step of `CLKCFG` and consumes one input. -/
theorem step_of_not_stable (hclk : s.clkStable = false) (hr : s.released) (h : exec .clkcfg s = .next t) :
    step s = .next (t.consumed 1 (t.oscFault || s.input.oscFaultSet)) := by
  rw [step_of_released (State.rstN_of_released hr), stepBody_of_current (State.current_of_not_stable hclk), h,
    andThen_next, resume, andThen_next, State.sample_eq_consumed (State.not_idle_of_not_stable hclk)
    (exec_keeps_outside h)]

theorem run_trans {j k : Nat} (h : Host.Core.run core j s = .next t) (h' : Host.Core.run core k t = .next u) :
    Host.Core.run core (j + k) s = .next u := (run_add h k).trans h'

/-! ### One step from each state of `CLKCFG`, but for the inputs -/

/-- The state `k` cycles on in the settle wait. -/
def State.waited (s : State) (k : Nat) : State := { s with cnt := s.cnt - k }

/-- The state after `k` iterations of the fault-clearing loop that each report a fault. -/
def State.retried (s : State) (k : Nat) : State := { s with retryCnt := s.retryCnt + k }

/-- The state in which the core stops after the retry that uses up the bound. -/
def State.timedOut (s : State) : State := { s.retried 1 with err := 1#2, seq := .cfgFailed }

theorem step_clkWrite (hseq : s.seq = .cfgWrite) (hr : s.released) :
    ∃ osc, step s = .next (s.clkWrite.consumed 1 osc) :=
  ⟨_, step_of_not_stable (by simp [State.clkState, clkStateOf, hseq]) hr (exec_clkcfg_of_cfgWrite hseq)⟩

theorem step_waited (hseq : s.seq = .cfgSettle) (hr : s.released) (hcnt : 0 < s.cnt) :
    ∃ osc, step s = .next ((s.waited 1).consumed 1 osc) := by
  have hstep := step_of_cfgSettle hseq hr
  rw [State.clkSettle_of_pos hcnt] at hstep
  exact ⟨_, hstep.trans (congrArg _ (State.sample_eq_consumed (t := s.waited 1) (by simp [hseq]) rfl))⟩

theorem step_settled (hseq : s.seq = .cfgSettle) (hr : s.released) (hcnt : s.cnt = 0) :
    ∃ osc, step s = .next (({ s with seq := .cfgFclr } : State).consumed 1 osc) := by
  have hstep := step_of_cfgSettle hseq hr
  rw [State.clkSettle_of_zero hcnt] at hstep
  exact ⟨_, hstep.trans (congrArg _ (State.sample_eq_consumed (by simp [hseq]) rfl))⟩

/-- An iteration of the loop, by the oscillator's answer. -/
theorem step_iterate (hseq : s.seq = .cfgFclr) (hr : s.released) :
    step s = .next ((s.clkIterate s.input.oscFaultSet).consumed 1 s.input.oscFaultSet) := by
  have hosc : (s.clkIterate s.input.oscFaultSet).oscFault = s.input.oscFaultSet := by rw [State.clkIterate_eq]
  have hstep := step_of_not_stable (by simp [State.clkState, clkStateOf, hseq]) hr (exec_clkcfg_of_cfgFclr hseq)
  rwa [hosc, Bool.or_self] at hstep

/-- A fault reported, with retries left. -/
theorem step_retried (hseq : s.seq = .cfgFclr) (hr : s.released) (hosc : s.input.oscFaultSet = true)
    (hleft : boundUsedUp s.par.maxRetry (s.retryCnt + 1) = false) :
    step s = .next ((s.retried 1).consumed 1 true) := by
  have hiter : s.clkIterate true = { s.retried 1 with oscFault := true } := by
    simp [State.clkIterate, hleft, State.retried]
  rw [step_iterate hseq hr, hosc, hiter]
  rfl

/-- A fault reported, and the first fault recorded with the retries used up. -/
theorem step_timedOut (hseq : s.seq = .cfgFclr) (herr : s.err = 0#2) (hr : s.released)
    (hosc : s.input.oscFaultSet = true) (hused : boundUsedUp s.par.maxRetry (s.retryCnt + 1) = true) :
    step s = .next (s.timedOut.consumed 1 true) := by
  have hiter : s.clkIterate true = { s.timedOut with oscFault := true } := by
    simp [State.clkIterate, hused, State.raise, faultCode, herr, State.timedOut, State.retried]
  rw [step_iterate hseq hr, hosc, hiter]
  rfl

/-- No fault reported: the clock is stable and the flag clear. -/
theorem step_cleared (hseq : s.seq = .cfgFclr) (hr : s.released) (hosc : s.input.oscFaultSet = false) :
    step s = .next (({ s with seq := .idle } : State).consumed 1 false) := by
  rw [step_iterate hseq hr, hosc]
  rfl

theorem step_failed (hseq : s.seq = .cfgFailed) (hr : s.released) :
    ∃ osc, step s = .next (s.consumed 1 osc) :=
  ⟨_, step_of_not_stable (by simp [State.clkState, clkStateOf, hseq]) hr
    (exec_clkcfg_of_over (by simp [hseq]) (by simp [hseq]) (by simp [hseq]))⟩

/-! ### Runs through the wait, the loop and the stop -/

/-- The wait, while `CNT` lasts. -/
theorem run_waited (hseq : s.seq = .cfgSettle) (hr : s.released) {k : Nat} (hk : k ≤ s.cnt) :
    ∃ osc, Host.Core.run core k s = .next ((s.waited k).consumed k osc) := by
  induction k with
  | zero => exact ⟨s.oscFault, rfl⟩
  | succ k ih =>
    obtain ⟨osc, hrun⟩ := ih (by omega)
    have hr' : ((s.waited k).consumed k osc).released := State.released_consumed (s := s.waited k) hr k osc
    obtain ⟨osc', hstep⟩ := step_waited (s := (s.waited k).consumed k osc) hseq hr' (Nat.sub_pos_of_lt hk)
    refine ⟨osc', (run_succ_of_run hrun).trans (hstep.trans (congrArg _ ?_))⟩
    exact State.consumed_consumed (s.waited (k + 1)) k 1 osc osc'

/-- The whole wait and the step that ends it. -/
theorem run_settled (hseq : s.seq = .cfgSettle) (hr : s.released) :
    ∃ osc, Host.Core.run core (s.cnt + 1) s =
      .next (({ s with cnt := 0, seq := .cfgFclr } : State).consumed (s.cnt + 1) osc) := by
  obtain ⟨osc, hrun⟩ := run_waited hseq hr le_rfl
  have hzero : s.waited s.cnt = { s with cnt := 0 } := by simp [State.waited]
  rw [hzero] at hrun
  have hr' := State.released_consumed (s := { s with cnt := 0 }) hr s.cnt osc
  obtain ⟨osc', hstep⟩ := step_settled (s := ({ s with cnt := 0 } : State).consumed s.cnt osc) hseq hr' rfl
  refine ⟨osc', (run_succ_of_run hrun).trans (hstep.trans (congrArg _ ?_))⟩
  exact State.consumed_consumed ({ s with cnt := 0, seq := .cfgFclr } : State) s.cnt 1 osc osc'

/-- A bound not used up was not used up before. -/
theorem boundUsedUp_of_le {bound : RetryBound} {r r' : Nat} (hle : r ≤ r') (h : boundUsedUp bound r' = false) :
    boundUsedUp bound r = false := by
  cases bound with
  | inf => rfl
  | finite b =>
    simp only [boundUsedUp, decide_eq_false_iff_not] at h ⊢
    omega

/-- The loop goes on while a fault is reported and retries are left. -/
theorem run_retried (hseq : s.seq = .cfgFclr) (hr : s.released) {k : Nat}
    (hosc : ∀ j < k, (s.inputAt j).oscFaultSet = true)
    (hleft : boundUsedUp s.par.maxRetry (s.retryCnt + k) = false) :
    ∃ osc, Host.Core.run core k s = .next ((s.retried k).consumed k osc) := by
  induction k with
  | zero => exact ⟨s.oscFault, rfl⟩
  | succ k ih =>
    obtain ⟨osc, hrun⟩ := ih (fun j hj => hosc j (by omega)) (boundUsedUp_of_le (by omega) hleft)
    have hinput : ((s.retried k).consumed k osc).input.oscFaultSet = true :=
      ((s.retried k).oscFaultSet_consumed k osc).trans (hosc k (by omega))
    have hr' : ((s.retried k).consumed k osc).released := State.released_consumed (s := s.retried k) hr k osc
    have hstep := step_retried (s := (s.retried k).consumed k osc) hseq hr' hinput hleft
    refine ⟨true, (run_succ_of_run hrun).trans (hstep.trans (congrArg _ ?_))⟩
    exact State.consumed_consumed (s.retried (k + 1)) k 1 osc true

/-- A stopped core stays as it is until reset. -/
theorem run_failed (hseq : s.seq = .cfgFailed) (hr : s.released) (k : Nat) :
    ∃ osc, Host.Core.run core k s = .next (s.consumed k osc) := by
  induction k with
  | zero => exact ⟨s.oscFault, rfl⟩
  | succ k ih =>
    obtain ⟨osc, hrun⟩ := ih
    obtain ⟨osc', hstep⟩ := step_failed (s := s.consumed k osc) hseq (State.released_consumed hr k osc)
    exact ⟨osc', (run_succ_of_run hrun).trans (hstep.trans (congrArg _ (s.consumed_consumed k 1 osc osc')))⟩

/-! ### The whole of `CLKCFG` -/

/-- The state in which the fault-clearing loop begins (R91, R93). -/
def State.settledClock (s : State) : State :=
  { s with clkSrc := s.par.clkSrcTarget, clkDiv := s.par.clkDivTarget, cnt := 0, seq := .cfgFclr }

/-- The write and the wait. -/
theorem run_settledClock (hseq : s.seq = .cfgWrite) (hr : s.released) :
    ∃ osc, Host.Core.run core (s.par.tSettleCyc + 2) s =
      .next (s.settledClock.consumed (s.par.tSettleCyc + 2) osc) := by
  obtain ⟨osc, hwrite⟩ := step_clkWrite hseq hr
  have hr' : (s.clkWrite.consumed 1 osc).released := State.released_consumed (s := s.clkWrite) hr 1 osc
  obtain ⟨osc', hwait⟩ := run_settled (s := s.clkWrite.consumed 1 osc) rfl hr'
  refine ⟨osc', ?_⟩
  have hlen : s.par.tSettleCyc + 2 = 1 + (s.par.tSettleCyc + 1) := by omega
  rw [hlen]
  refine (run_trans ((run_one s).trans hwrite) hwait).trans (congrArg _ ?_)
  exact State.consumed_consumed s.settledClock 1 (s.par.tSettleCyc + 1) osc osc'

/-- The write, the wait, `m` iterations with a fault reported and one without. -/
theorem run_configured {m : Nat} (hseq : s.seq = .cfgWrite) (hr : s.released)
    (hfault : ∀ j < m, (s.inputAt (s.par.tSettleCyc + 2 + j)).oscFaultSet = true)
    (hlast : (s.inputAt (s.par.tSettleCyc + 2 + m)).oscFaultSet = false)
    (hleft : boundUsedUp s.par.maxRetry (s.retryCnt + m) = false) :
    Host.Core.run core (s.par.tSettleCyc + m + 3) s =
      .next (({ s.settledClock.retried m with seq := .idle } : State).consumed (s.par.tSettleCyc + m + 3) false) := by
  obtain ⟨o, hrun⟩ := run_settledClock hseq hr
  generalize hn : s.par.tSettleCyc + 2 = n at hrun hfault hlast
  have hr₁ : (s.settledClock.consumed n o).released := State.released_consumed (s := s.settledClock) hr n o
  have hinput (j : Nat) : (s.settledClock.consumed n o).inputAt j = s.inputAt (n + j) :=
    s.settledClock.inputAt_consumed n o j
  obtain ⟨o', hloop⟩ := run_retried (s := s.settledClock.consumed n o) rfl hr₁
    (fun j hj => by rw [hinput]; exact hfault j hj) hleft
  have hr₂ := State.released_consumed (s := (s.settledClock.consumed n o).retried m) hr₁ m o'
  have hosc : (((s.settledClock.consumed n o).retried m).consumed m o').input.oscFaultSet = false := by
    rw [State.oscFaultSet_consumed]
    exact (congrArg _ (hinput m)).trans hlast
  have hend := step_cleared (s := ((s.settledClock.consumed n o).retried m).consumed m o') rfl hr₂ hosc
  have hlen : s.par.tSettleCyc + m + 3 = n + m + 1 := by omega
  rw [hlen]
  refine ((run_succ_of_run (run_trans hrun hloop)).trans hend).trans (congrArg _ ?_)
  rw [← State.consumed_consumed _ (n + m) 1 o' false, ← State.consumed_consumed _ n m o o']
  rfl

end

/-! ### The settled statements -/

/-- Settles O20: an infinite bound is never used up, so the loop goes on. -/
theorem clkcfgHangsWhileFaultReported : Obligations.ClkcfgHangsWhileFaultReported := by
  intro s k hseq hinf hr hosc
  obtain ⟨osc, hrun⟩ := run_retried hseq hr hosc (by rw [hinf]; rfl)
  exact ⟨_, hrun, hseq, rfl, by simp [State.cmdReady, State.consumed, State.retried, hseq], rfl, rfl⟩

/-- Settles O21: `m` iterations leave one retry, the next uses up the bound, and a stopped core stays stopped. -/
theorem clkcfgTimesOut : Obligations.ClkcfgTimesOut := by
  intro s m k hseq herr hbound hr hosc
  have hleft : boundUsedUp s.par.maxRetry (s.retryCnt + m) = false := by
    rw [hbound]
    exact decide_eq_false (by omega)
  have hused : boundUsedUp s.par.maxRetry (s.retryCnt + m + 1) = true := by
    rw [hbound]
    exact decide_eq_true (by omega)
  obtain ⟨o, hloop⟩ := run_retried hseq hr (fun j hj => hosc j (by omega)) hleft
  have hinput : ((s.retried m).consumed m o).input.oscFaultSet = true :=
    ((s.retried m).oscFaultSet_consumed m o).trans (hosc m (by omega))
  have hr₁ : ((s.retried m).consumed m o).released := State.released_consumed (s := s.retried m) hr m o
  have hstop := step_timedOut (s := (s.retried m).consumed m o) hseq herr hr₁ hinput hused
  have hr₂ := State.released_consumed (s := ((s.retried m).consumed m o).timedOut) hr₁ 1 true
  obtain ⟨o', hstay⟩ := run_failed rfl hr₂ k
  refine ⟨_, run_trans ((run_succ_of_run hloop).trans hstop) hstay, rfl, rfl, rfl, ?_, ?_, rfl⟩
  · simp [State.cmdReady, State.consumed, State.timedOut]
  · simp [State.clkState, clkStateOf, State.consumed, State.timedOut]

/-- Settles O22: the run is that of `run_configured`, whose state shows all that is asked. -/
theorem clkcfgReachesStable : Obligations.ClkcfgReachesStable := by
  intro s m hseq hr hfault hlast hleft
  refine ⟨_, run_configured hseq hr hfault hlast hleft, rfl, (State.clkStable_iff _).mpr rfl, rfl,
    rfl, rfl, rfl, rfl, rfl, rfl, rfl, rfl, rfl, rfl⟩

end Sys2Proof.Machine
end

section
/-! A host program from `IDLE` (R84): no command reads what sampling writes, so a run is its commands one after another
and the inputs consumed. -/

namespace Sys2Proof.Machine

/-- The state with the inputs, the flag they set, the program and the step counter of another. -/
def State.withInputsOf (s q : State) : State :=
  { s with oscFault := q.oscFault, env := q.env, prog := q.prog, edges := q.edges }

section
variable {s t : State}

/-! ### No command reads what sampling writes -/

theorem State.clearFb_withInputsOf (s q : State) : (s.withInputsOf q).clearFb = s.clearFb.withInputsOf q := by
  rw [State.clearFb_eq, State.clearFb_eq]
  rfl

theorem State.setLed_withInputsOf (s q : State) (idx : IndexField) (r g b : Byte) :
    (s.withInputsOf q).setLed idx r g b = (s.setLed idx r g b).withInputsOf q := by
  have hpar : (s.withInputsOf q).par = s.par := rfl
  unfold State.setLed
  rw [hpar]
  cases indexRange s.par.n idx <;> rfl

theorem State.transmit_withInputsOf (s q : State) : (s.withInputsOf q).transmit = s.transmit.withInputsOf q := by
  rw [State.transmit_eq, State.transmit_eq]
  rfl

/-- A command at `IDLE` answers with the core at `IDLE`, the same whatever the inputs, the program and the flag are. -/
theorem exec_decode_withInputsOf (hseq : s.seq = .idle) (w : CmdWord) :
    ∃ t, exec (decode w) s = .next t ∧ t.seq = .idle ∧
      ∀ q, exec (decode w) (s.withInputsOf q) = .next (t.withInputsOf q) := by
  have hseq' (q : State) : (s.withInputsOf q).seq = .idle := hseq
  refine decode_induction
    (motive := fun i => ∃ t, exec i s = .next t ∧ t.seq = .idle ∧
      ∀ q, exec i (s.withInputsOf q) = .next (t.withInputsOf q))
    w (fun rest => ?_) (fun ignored => ?_) (fun idx r g b => ?_) fun ignored => ?_
  · refine ⟨s.illegal rest, ?_, hseq, fun q => ?_⟩
    · rw [exec_reserved, State.whenReady_of_idle hseq]
    · rw [exec_reserved, State.whenReady_of_idle (hseq' q)]
      rfl
  · refine ⟨s.clearFb, exec_clear_of_idle hseq _, ?_, fun q => ?_⟩
    · rw [State.clearFb_frame]
      exact hseq
    · rw [exec_clear_of_idle (hseq' q), State.clearFb_withInputsOf]
  · refine ⟨_, exec_set_of_idle hseq _ _ _ _, (s.setLed_seq _ _ _ _).trans hseq, fun q => ?_⟩
    rw [exec_set_of_idle (hseq' q), State.setLed_withInputsOf]
  · refine ⟨s.transmit, exec_transmit_of_idle hseq _, rfl, fun q => ?_⟩
    rw [exec_transmit_of_idle (hseq' q), State.transmit_withInputsOf]

/-! ### A run of commands -/

/-- No listed input asserts reset or offers a word. -/
def State.silent (s : State) : Prop := ∀ i ∈ s.env, i.rstN = true ∧ i.cmd = none

theorem State.silent_sample (h : s.silent) (t : State) : (t.sample s).silent :=
  fun i hi => h i (List.mem_of_mem_tail hi)

theorem State.released_of_silent (h : s.silent) : s.released := fun i hi => (h i hi).1

theorem State.listedInput_cmd_of_silent (h : s.silent) : s.listedInput.cmd = none := by
  unfold State.listedInput
  split
  · rfl
  · next i rest he => exact (h i (he ▸ List.mem_cons_self)).2

/-- A step at `IDLE` with the program's first word on the port. -/
theorem step_of_program {w : CmdWord} {ws : List CmdWord} (hseq : s.seq = .idle) (hs : s.silent)
    (hprog : s.prog = w :: ws) (h : exec (decode w) s = .next t) :
    step s = .next (t.sample s) ∧ (t.sample s).prog = ws := by
  have hlist : s.listedInput.cmd = none := State.listedInput_cmd_of_silent hs
  have hcmd : s.input.cmd = some w := by rw [State.input_cmd_of_unlisted hlist, hprog, List.head?_cons]
  refine ⟨?_, ?_⟩
  · rw [step_of_released (State.rstN_of_released (State.released_of_silent hs)), stepBody_of_idle hseq hcmd, h,
      andThen_next]
  · rw [State.sample_prog, State.progAfter_of_idle hseq hlist, hprog, List.tail_cons]

/-- The run of a program and its commands one after another, from states that differ in the inputs only. -/
theorem run_program (ws more : List CmdWord) (hseq : s.seq = .idle) (hs : s.silent) (hprog : s.prog = ws ++ more)
    (q : State) :
    ∃ t, Host.Core.run core ws.length s = .next t ∧ runCommands ws (s.withInputsOf q) = .next (t.withInputsOf q) ∧
      t.prog = more ∧ t.seq = .idle := by
  induction ws generalizing s with
  | nil => exact ⟨s, rfl, rfl, hprog, hseq⟩
  | cons w ws ih =>
    obtain ⟨t, hexec, htseq, hother⟩ := exec_decode_withInputsOf hseq w
    obtain ⟨hstep, htprog⟩ := step_of_program hseq hs hprog hexec
    obtain ⟨v, hrun, hcmds, hvprog, hvseq⟩ := ih (s := t.sample s) htseq (State.silent_sample hs t) htprog
    refine ⟨v, ?_, ?_, hvprog, hvseq⟩
    · rw [List.length_cons, run_succ, hstep]
      exact hrun
    · rw [runCommands, hother q, andThen_next]
      exact hcmds

end

/-! ### The settled statement -/

/-- Settles O8: run beside the commands, whose inputs stay those of the first state. -/
theorem programRunsInOrder : Obligations.ProgramRunsInOrder := by
  intro s ws more hseq hs hprog
  obtain ⟨t, hrun, hcmds, htprog, htseq⟩ := run_program ws more hseq hs hprog s
  exact ⟨t, t.withInputsOf s, hrun, hcmds, htprog, htseq, rfl⟩

end Sys2Proof.Machine
end

section
/-! The frame of `TRANSMIT` in numbers (R117): its symbols, its duration, its rising edges, and that it is the same
again (R120). -/

namespace Sys2Proof.Machine

/-! ### The bits of a frame -/

theorem State.length_frameBits (s : State) : s.frameBits.length = 24 * s.par.n := by simp [State.frameBits]

/-- A 0 bit of the frame is one that is no 1 bit. -/
theorem State.zeroBits_eq_count (s : State) : s.zeroBits = s.frameBits.count false := by
  have hsum := List.count_true_add_count_false s.frameBits
  rw [State.length_frameBits] at hsum
  unfold State.zeroBits State.oneBits
  omega

theorem State.oneBits_add_zeroBits (s : State) : s.oneBits + s.zeroBits = 24 * s.par.n := by
  rw [State.zeroBits_eq_count, State.oneBits, List.count_true_add_count_false, State.length_frameBits]

/-! ### Symbols -/

theorem bitSymbol_ne_rst (c : Bool) : bitSymbol c ≠ .rst := by cases c <;> decide

theorem rst_notMem_map_bitSymbol (cs : List Bool) : Symbol.rst ∉ cs.map bitSymbol := by
  intro h
  obtain ⟨c, -, hc⟩ := List.mem_map.mp h
  exact bitSymbol_ne_rst c hc

/-- `24 * n` bit symbols and one `RST` are a complete frame. -/
theorem completeFrame_of_bits {n : Nat} {cs : List Bool} (h : cs.length = 24 * n) :
    completeFrame n (cs.map bitSymbol ++ [.rst]) = true := by
  simp [completeFrame, h, bitSymbol_ne_rst]

/-! ### Duration -/

/-- A 0 bit lasts 23 cycles and a 1 bit 25 (R113). -/
theorem wireCycles_symbols (cs : List Bool) :
    wireCycles (cs.flatMap symbolSegments) = 23 * cs.count false + 25 * cs.count true := by
  induction cs with
  | nil => rfl
  | cons c cs ih =>
    rw [List.flatMap_cons, wireCycles_append, wireCycles_symbolSegments, ih]
    cases c <;> simp [highCycles, lowCycles, Config.t0hCyc, Config.t0lCyc, Config.t1hCyc, Config.t1lCyc] <;> omega

theorem State.wireCycles_frameSegments (s : State) : wireCycles s.frameSegments = s.frameCycles := by
  rw [State.frameSegments, wireCycles_append, wireCycles_symbols, ← State.zeroBits_eq_count]
  rfl

/-! ### Rising edges -/

theorem risingEdges_replicate (l : Level) (n : Nat) (ls : List Level) :
    risingEdges l (List.replicate n l ++ ls) = risingEdges l ls := by
  induction n with
  | zero => rfl
  | succ n ih => cases l <;> simp [List.replicate_succ, risingEdges, ih]

/-- A high phase and a low phase after a low line raise it once. -/
theorem risingEdges_pulse (m n : Nat) (ls : List Level) :
    risingEdges false (List.replicate (m + 1) true ++ (List.replicate (n + 1) false ++ ls)) =
      risingEdges false ls + 1 := by
  simp [List.replicate_succ, risingEdges, risingEdges_replicate, Nat.add_comm]

/-- The levels of a bit symbol, neither phase of which is empty. -/
theorem levels_symbol (c : Bool) (w : List Segment) :
    levels (symbolSegments c ++ w) =
      List.replicate (highCycles c - 1 + 1) true ++ (List.replicate (lowCycles c - 1 + 1) false ++ levels w) := by
  rw [Nat.sub_add_cancel (highCycles_pos c), Nat.sub_add_cancel (lowCycles_pos c)]
  rfl

/-- Each bit symbol raises the line once, and a low period at the end does not. -/
theorem risingEdges_symbols (cs : List Bool) (n : Nat) :
    risingEdges false (levels (cs.flatMap symbolSegments ++ [⟨false, n⟩])) = cs.length := by
  induction cs with
  | nil => exact risingEdges_replicate false n []
  | cons c cs ih => rw [List.flatMap_cons, List.append_assoc, levels_symbol, risingEdges_pulse, ih, List.length_cons]

/-! ### `TRANSMIT` as an append -/

theorem State.transmit_wire (s : State) : s.transmit.wire = s.wire ++ s.frameSegments := by rw [State.transmit_eq]

theorem State.transmit_syms (s : State) : s.transmit.syms = s.syms ++ s.frameSymbols := by rw [State.transmit_eq]

/-- A frame leaves the bytes it was sent from, so the next one is the same. -/
theorem State.frameBits_transmit (s : State) : s.transmit.frameBits = s.frameBits := by
  rw [State.transmit_eq]
  rfl

theorem State.transmit_par (s : State) : s.transmit.par = s.par := by rw [State.transmit_eq]

theorem State.transmit_seq (s : State) : s.transmit.seq = .idle := rfl

/-! ### The settled statements -/

/-- Settles O31: the symbols are those of the bits of the frame, `24 * N` in number, and the `RST`. -/
theorem transmitCountsSymbols : Obligations.TransmitCountsSymbols := by
  intro s ignored hseq
  refine ⟨s.transmit, s.frameBits.map bitSymbol, exec_transmit_of_idle hseq ignored, s.transmit_syms, ?_,
    rst_notMem_map_bitSymbol _, completeFrame_of_bits s.length_frameBits⟩
  rw [List.length_map, State.length_frameBits]

/-- Settles O33: the frame is the levels of the appended segments, counted bit by bit. -/
theorem transmitDurationAndRises : Obligations.TransmitDurationAndRises := by
  intro s ignored hseq
  have hlen : (levels s.frameSegments).length = 23 * s.zeroBits + 25 * s.oneBits + s.par.tResetCyc := by
    rw [length_levels, State.wireCycles_frameSegments]
    rfl
  have hbits := s.oneBits_add_zeroBits
  refine ⟨s.transmit, levels s.frameSegments, exec_transmit_of_idle hseq ignored, ?_, hlen, hbits, by omega, by omega,
    ?_⟩
  · rw [State.transmit_wire, levels_append]
  · rw [State.frameSegments, risingEdges_symbols, State.length_frameBits]

/-- Settles O34: the second frame is sent from the same bytes. -/
theorem transmitIdempotent : Obligations.TransmitIdempotent := by
  intro s ignored hseq
  refine ⟨s.transmit, s.transmit.transmit, s.frameSegments, s.frameSymbols, exec_transmit_of_idle hseq ignored,
    exec_transmit_of_idle s.transmit_seq ignored, s.transmit_wire, ?_, s.transmit_syms, ?_⟩
  · rw [State.transmit_wire s.transmit, State.frameSegments, State.frameBits_transmit, State.transmit_par]
    rfl
  · rw [State.transmit_syms s.transmit, State.frameSymbols, State.frameBits_transmit]
    rfl

end Sys2Proof.Machine
end

section
/-! Captured timelines (R81, R111): what conforms to a trace is read as that trace, conforming pieces join to a
conforming whole, and the timeline of a frame conforms with zero error. -/

namespace Sys2Proof.Machine

/-! ### Conformance as a relation -/

/-- The pulses that conform to a trace after the first rising edge, symbol by symbol (R111). -/
inductive ConformingPulses (tol : Nat) : List Symbol → List Pulse → Prop
  | nil : ConformingPulses tol [] []
  | last {c p syms ps} (hp : conformsLast tol c p = true) (h : ConformingPulses tol syms ps) :
    ConformingPulses tol (bitSymbol c :: .rst :: syms) (p :: ps)
  | bit {c p syms ps} (hp : conformsBit tol c p = true) (hhead : syms.head? ≠ some .rst)
    (h : ConformingPulses tol syms ps) : ConformingPulses tol (bitSymbol c :: syms) (p :: ps)

theorem conformsPulses_last (tol : Nat) (c : Bool) (syms : List Symbol) (p : Pulse) (ps : List Pulse) :
    conformsPulses tol (bitSymbol c :: .rst :: syms) (p :: ps) =
      (conformsLast tol c p && conformsPulses tol syms ps) := by
  cases c <;> rfl

theorem conformsPulses_bit (tol : Nat) (c : Bool) {syms : List Symbol} (hhead : syms.head? ≠ some .rst) (p : Pulse)
    (ps : List Pulse) :
    conformsPulses tol (bitSymbol c :: syms) (p :: ps) = (conformsBit tol c p && conformsPulses tol syms ps) := by
  cases syms with
  | nil => cases c <;> rfl
  | cons x syms =>
    cases x with
    | rst => exact absurd rfl hhead
    | b0 => cases c <;> rfl
    | b1 => cases c <;> rfl

theorem ConformingPulses.of_bit {tol : Nat} {c : Bool} {syms : List Symbol} {p : Pulse} {ps : List Pulse}
    (hhead : syms.head? ≠ some .rst) (ih : conformsPulses tol syms ps = true → ConformingPulses tol syms ps)
    (h : conformsPulses tol (bitSymbol c :: syms) (p :: ps) = true) :
    ConformingPulses tol (bitSymbol c :: syms) (p :: ps) := by
  rw [conformsPulses_bit _ _ hhead] at h
  obtain ⟨hp, hps⟩ := Bool.and_eq_true_iff.mp h
  exact .bit hp hhead (ih hps)

theorem ConformingPulses.of_last {tol : Nat} {c : Bool} {syms : List Symbol} {p : Pulse} {ps : List Pulse}
    (ih : conformsPulses tol syms ps = true → ConformingPulses tol syms ps)
    (h : conformsPulses tol (bitSymbol c :: .rst :: syms) (p :: ps) = true) :
    ConformingPulses tol (bitSymbol c :: .rst :: syms) (p :: ps) := by
  rw [conformsPulses_last] at h
  obtain ⟨hp, hps⟩ := Bool.and_eq_true_iff.mp h
  exact .last hp (ih hps)

theorem head?_ne_rst {syms : List Symbol} (h : ∀ rest, syms = .rst :: rest → False) : syms.head? ≠ some .rst := by
  intro hhead
  obtain ⟨rest, hrest⟩ := List.head?_eq_some_iff.mp hhead
  exact h rest hrest

theorem conformsPulses_iff {tol : Nat} {syms : List Symbol} {ps : List Pulse} :
    conformsPulses tol syms ps = true ↔ ConformingPulses tol syms ps := by
  constructor
  · induction syms, ps using conformsPulses.induct with
    | case1 ps =>
      intro h
      obtain rfl : ps = [] := List.isEmpty_iff.mp h
      exact .nil
    | case2 syms p ps ih => exact ConformingPulses.of_last (c := false) ih
    | case3 syms p ps ih => exact ConformingPulses.of_last (c := true) ih
    | case4 syms p ps hne ih => exact ConformingPulses.of_bit (c := false) (head?_ne_rst hne) ih
    | case5 syms p ps hne ih => exact ConformingPulses.of_bit (c := true) (head?_ne_rst hne) ih
    | case6 x syms ps _ _ h0 h1 =>
      intro h
      cases ps with
      | nil => cases x <;> simp [conformsPulses] at h
      | cons p ps =>
        cases x with
        | b0 => exact absurd rfl (h0 p ps rfl)
        | b1 => exact absurd rfl (h1 p ps rfl)
        | rst => simp [conformsPulses] at h
  · intro h
    induction h with
    | nil => rfl
    | last hp _ ih => rw [conformsPulses_last, hp, ih]; rfl
    | bit hp hhead _ ih => rw [conformsPulses_bit _ _ hhead, hp, ih]; rfl

/-! ### The windows -/

theorem conformsBit_iff {tol : Nat} {c : Bool} {p : Pulse} :
    conformsBit tol c p = true ↔
      within p.high (cyclesToNs (highCycles c)) tol = true ∧ within p.low (cyclesToNs (lowCycles c)) tol = true := by
  cases c <;> exact Bool.and_eq_true_iff

theorem conformsLast_iff {tol : Nat} {c : Bool} {p : Pulse} :
    conformsLast tol c p = true ↔
      within p.high (cyclesToNs (highCycles c)) tol = true ∧ 1000000 ≤ p.low - cyclesToNs (lowCycles c) := by
  rw [conformsLast, Bool.and_eq_true_iff, conformsBit_iff, conformsReset, decide_eq_true_iff]
  simp only [within_self, and_true]

theorem nominal_ns (c : Bool) :
    (cyclesToNs (highCycles c) = 250 ∨ cyclesToNs (highCycles c) = 800) ∧
      (cyclesToNs (lowCycles c) = 900 ∨ cyclesToNs (lowCycles c) = 450) := by
  cases c <;> decide

/-- A low phase in the window of a bit is neither missing nor a reset time. -/
theorem low_of_conformsBit {tol : Nat} {c : Bool} {p : Pulse} (htol : tol < 275) (h : conformsBit tol c p = true) :
    0 < p.low ∧ p.low < 1000000 := by
  obtain ⟨-, hlow⟩ := conformsBit_iff.mp h
  obtain ⟨-, hns⟩ := nominal_ns c
  simp only [within, Bool.and_eq_true, decide_eq_true_eq] at hlow
  omega

/-! ### Reading -/

/-- A high phase in the window of a bit is read as that bit. -/
theorem receivedBit_of_within {tol h : Nat} {c : Bool} (htol : tol < 275)
    (hw : within h (cyclesToNs (highCycles c)) tol = true) : receivedBit tol h = some c := by
  refine receivedBit_eq_some.mpr ⟨hw, ?_⟩
  cases c with
  | false => exact within_high_unique htol hw
  | true =>
    refine Bool.eq_false_iff.mpr fun h0 => ?_
    exact absurd (hw.symm.trans (within_high_unique htol h0)) (by decide)

theorem receivedPulses_cons {tol : Nat} {c : Bool} {p : Pulse} {ps : List Pulse} {syms : List Symbol}
    (hbit : receivedBit tol p.high = some c) (hps : receivedPulses tol ps = some syms) :
    receivedPulses tol (p :: ps) = some (bitSymbol c :: afterLow p.low syms) := by
  rw [receivedPulses, hbit, hps]

theorem afterLow_of_le {low : Nat} (h : 1000000 ≤ low) (syms : List Symbol) : afterLow low syms = .rst :: syms :=
  if_pos (decide_eq_true h)

theorem afterLow_of_lt {low : Nat} (h : low < 1000000) (syms : List Symbol) : afterLow low syms = syms :=
  if_neg (by simp [conformsReset, h])

/-- Conforming pulses are read as the symbols they conform to. -/
theorem ConformingPulses.received {tol : Nat} {syms : List Symbol} {ps : List Pulse} (htol : tol < 275)
    (h : ConformingPulses tol syms ps) : receivedPulses tol ps = some syms := by
  induction h with
  | nil => rfl
  | last hp _ ih =>
    obtain ⟨hhigh, hlow⟩ := conformsLast_iff.mp hp
    rw [receivedPulses_cons (receivedBit_of_within htol hhigh) ih, afterLow_of_le (by omega)]
  | bit hp _ _ ih =>
    obtain ⟨-, hlow⟩ := low_of_conformsBit htol hp
    obtain ⟨hhigh, -⟩ := conformsBit_iff.mp hp
    rw [receivedPulses_cons (receivedBit_of_within htol hhigh) ih, afterLow_of_lt hlow]

/-! ### Conformance of a timeline -/

theorem conformsTimeline_rst (tol : Nat) (syms : List Symbol) (tl : Timeline) :
    conformsTimeline tol (.rst :: syms) tl = (conformsReset tl.before && conformsPulses tol syms tl.pulses) := rfl

theorem conformsTimeline_of_head?_ne {tol : Nat} {syms : List Symbol} (hhead : syms.head? ≠ some .rst)
    (tl : Timeline) :
    conformsTimeline tol syms tl = (!conformsReset tl.before && conformsPulses tol syms tl.pulses) := by
  cases syms with
  | nil => rfl
  | cons x syms =>
    cases x with
    | rst => exact absurd rfl hhead
    | b0 => rfl
    | b1 => rfl

/-- A timeline conforms in one of two ways, by the low before its first rising edge. -/
theorem conformsTimeline_iff {tol : Nat} {syms : List Symbol} {tl : Timeline} :
    conformsTimeline tol syms tl = true ↔
      (1000000 ≤ tl.before ∧ ∃ rest, syms = .rst :: rest ∧ ConformingPulses tol rest tl.pulses) ∨
        (tl.before < 1000000 ∧ syms.head? ≠ some .rst ∧ ConformingPulses tol syms tl.pulses) := by
  by_cases hhead : syms.head? = some .rst
  · obtain ⟨rest, rfl⟩ := List.head?_eq_some_iff.mp hhead
    rw [conformsTimeline_rst, Bool.and_eq_true_iff, conformsPulses_iff, conformsReset, decide_eq_true_iff]
    simp
  · have hne (rest : List Symbol) : syms ≠ .rst :: rest := fun h => hhead (by rw [h, List.head?_cons])
    rw [conformsTimeline_of_head?_ne hhead, Bool.and_eq_true_iff, conformsPulses_iff, conformsReset]
    simp [hhead, hne]

/-- A timeline that conforms to a trace is read as that trace, in the windows that do not overlap. -/
theorem receivedTrace_of_conforms {tol : Nat} {syms : List Symbol} {tl : Timeline} (htol : tol < 275)
    (h : conformsTimeline tol syms tl = true) : receivedTrace tol tl = some syms := by
  rcases conformsTimeline_iff.mp h with ⟨hlong, rest, rfl, hps⟩ | ⟨hshort, -, hps⟩
  · rw [receivedTrace_of_pulses (hps.received htol), afterLow_of_le hlong]
  · rw [receivedTrace_of_pulses (hps.received htol), afterLow_of_lt hshort]

/-! ### Conforming pieces in a row -/

theorem ConformingPulses.low_pos {tol : Nat} {syms : List Symbol} {ps : List Pulse} (htol : tol < 275)
    (h : ConformingPulses tol syms ps) : ∀ p ∈ ps, 0 < p.low := by
  induction h with
  | nil => simp
  | last hp _ ih =>
    obtain ⟨-, hlow⟩ := conformsLast_iff.mp hp
    exact List.forall_mem_cons.mpr ⟨by omega, ih⟩
  | bit hp _ _ ih => exact List.forall_mem_cons.mpr ⟨(low_of_conformsBit htol hp).1, ih⟩

theorem head?_append_ne_rst {syms syms' : List Symbol} (h : syms.head? ≠ some .rst) (h' : syms'.head? ≠ some .rst) :
    (syms ++ syms').head? ≠ some .rst := by
  cases syms with
  | nil => exact h'
  | cons x syms => exact h

/-- What comes after must not begin with `RST`: the last symbol before would be a last one of R111 then. -/
theorem ConformingPulses.append {tol : Nat} {syms syms' : List Symbol} {ps ps' : List Pulse}
    (h : ConformingPulses tol syms ps) (h' : ConformingPulses tol syms' ps') (hhead : syms'.head? ≠ some .rst) :
    ConformingPulses tol (syms ++ syms') (ps ++ ps') := by
  induction h with
  | nil => exact h'
  | last hp _ ih => exact .last hp ih
  | bit hp hne _ ih => exact .bit hp (head?_append_ne_rst hne hhead) ih

theorem timelineOf_false (ls : List Level) :
    timelineOf (false :: ls) = ⟨(timelineOf ls).before + 1, (timelineOf ls).pulses⟩ := rfl

/-- Levels that end low and levels that begin high: the pulses of both. -/
theorem timelineOf_append {ls ls' : List Level} (hstart : (timelineOf ls').before = 0)
    (hlow : ∀ p ∈ (timelineOf ls).pulses, 0 < p.low) :
    timelineOf (ls ++ ls') = ⟨(timelineOf ls).before, (timelineOf ls).pulses ++ (timelineOf ls').pulses⟩ := by
  induction ls with
  | nil => exact congrArg (fun b => Timeline.mk b _) hstart
  | cons l ls ih =>
    cases l with
    | false =>
      rw [List.cons_append, timelineOf_false, ih hlow]
      rfl
    | true =>
      cases htl : timelineOf ls with
      | mk before ps =>
        simp only [timelineOf, htl] at hlow ih
        simp only [List.cons_append, timelineOf, htl]
        cases before with
        | zero =>
          cases ps with
          | nil => simp at hlow
          | cons p ps =>
            rw [ih (by simpa using hlow)]
            rfl
        | succ b =>
          rw [ih (List.forall_mem_cons.mp hlow).2]
          rfl

/-- Two captured timelines in a row, where the first ends low and the second begins high. -/
theorem captureNs_append {w w' : List Segment} (hstart : (captureNs w').before = 0)
    (hlow : ∀ p ∈ (captureNs w).pulses, 0 < p.low) :
    captureNs (w ++ w') = ⟨(captureNs w).before, (captureNs w).pulses ++ (captureNs w').pulses⟩ := by
  have hstart' : (timelineOf (levels w')).before = 0 := by
    have h50 : 50 * (timelineOf (levels w')).before = 0 := hstart
    omega
  have hlow' : ∀ p ∈ (timelineOf (levels w)).pulses, 0 < p.low := by
    intro p hp
    have h50 : 0 < 50 * p.low := hlow p.toNs (List.mem_map_of_mem hp)
    omega
  rw [captureNs, levels_append, timelineOf_append hstart' hlow']
  simp [captureNs, Timeline.toNs]

/-- A conforming timeline and then one that begins with a pulse conform together. -/
theorem conformsTimeline_append {tol : Nat} {syms syms' : List Symbol} {w w' : List Segment} (htol : tol < 275)
    (h : conformsTimeline tol syms (captureNs w) = true) (hstart : (captureNs w').before = 0)
    (h' : ConformingPulses tol syms' (captureNs w').pulses) (hhead : syms'.head? ≠ some .rst) :
    conformsTimeline tol (syms ++ syms') (captureNs (w ++ w')) = true := by
  refine conformsTimeline_iff.mpr ?_
  rcases conformsTimeline_iff.mp h with ⟨hlong, rest, rfl, hps⟩ | ⟨hshort, hne, hps⟩
  · rw [captureNs_append hstart (hps.low_pos htol)]
    exact .inl ⟨hlong, rest ++ syms', rfl, hps.append h' hhead⟩
  · rw [captureNs_append hstart (hps.low_pos htol)]
    exact .inr ⟨hshort, head?_append_ne_rst hne hhead, hps.append h' hhead⟩

/-! ### The timeline of a frame -/

theorem cyclesToNs_add (a b : Nat) : cyclesToNs (a + b) = cyclesToNs a + cyclesToNs b := Nat.mul_add _ _ _

/-- A high phase and a low phase, whatever follows: one pulse, whose low runs on to the next rising edge. -/
theorem timelineOf_high_low (m n : Nat) (ls : List Level) :
    timelineOf (List.replicate (m + 1) true ++ (List.replicate (n + 1) false ++ ls)) =
      ⟨0, ⟨m + 1, (timelineOf ls).before + (n + 1)⟩ :: (timelineOf ls).pulses⟩ := by
  induction m with
  | zero => simp [timelineOf, timelineOf_low]
  | succ m ih =>
    rw [List.replicate_succ, List.cons_append, timelineOf, ih]
    rfl

theorem captureNs_low (n : Nat) (w : List Segment) :
    captureNs (⟨false, n⟩ :: w) = ⟨(captureNs w).before + cyclesToNs n, (captureNs w).pulses⟩ := by
  rw [captureNs, levels, timelineOf_low]
  simp [captureNs, Timeline.toNs, cyclesToNs_add]

theorem captureNs_symbol (c : Bool) (w : List Segment) :
    captureNs (symbolSegments c ++ w) =
      ⟨0, ⟨cyclesToNs (highCycles c), (captureNs w).before + cyclesToNs (lowCycles c)⟩ :: (captureNs w).pulses⟩ := by
  rw [captureNs, levels_symbol, timelineOf_high_low, Nat.sub_add_cancel (highCycles_pos c),
    Nat.sub_add_cancel (lowCycles_pos c)]
  simp [captureNs, Timeline.toNs, Pulse.toNs, cyclesToNs, Nat.mul_add]

/-- Bit symbols and a latch period of the reset time conform with zero error. -/
theorem conformingPulses_symbols (tol : Nat) {n : Nat} (hn : 1000000 ≤ cyclesToNs n) {cs : List Bool} (hcs : cs ≠ []) :
    (captureNs (cs.flatMap symbolSegments ++ [⟨false, n⟩])).before = 0 ∧
      ConformingPulses tol (cs.map bitSymbol ++ [.rst])
        (captureNs (cs.flatMap symbolSegments ++ [⟨false, n⟩])).pulses := by
  induction cs with
  | nil => exact absurd rfl hcs
  | cons c cs ih =>
    rw [List.flatMap_cons, List.append_assoc, captureNs_symbol]
    refine ⟨rfl, ?_⟩
    cases cs with
    | nil =>
      have hlatch : captureNs [⟨false, n⟩] = ⟨cyclesToNs n, []⟩ := by
        rw [captureNs_low]
        exact congrArg (fun b => Timeline.mk b _) (Nat.zero_add _)
      rw [List.flatMap_nil, List.nil_append, hlatch]
      exact .last (conformsLast_iff.mpr ⟨within_self _ tol, hn.trans_eq (Nat.add_sub_cancel ..).symm⟩) .nil
    | cons c' cs =>
      obtain ⟨hstart, hps⟩ := ih (by simp)
      rw [hstart, Nat.zero_add]
      refine .bit (conformsBit_iff.mpr ⟨within_self _ tol, within_self _ tol⟩) ?_ hps
      simp [bitSymbol_ne_rst]

/-- The timeline of a frame begins high and conforms to its symbols, of which the first is a bit. -/
theorem State.conformingPulses_frame (s : State) (tol : Nat) (hp : s.par.wellFormed) :
    (captureNs s.frameSegments).before = 0 ∧ ConformingPulses tol s.frameSymbols (captureNs s.frameSegments).pulses ∧
      s.frameSymbols.head? ≠ some .rst := by
  have hbits : s.frameBits ≠ [] := by
    obtain ⟨hn, -, -, -, -⟩ := hp
    rw [← List.length_pos_iff, State.length_frameBits]
    omega
  obtain ⟨hstart, hps⟩ := conformingPulses_symbols tol (Params.le_cyclesToNs_tResetCyc hp) hbits
  refine ⟨hstart, hps, ?_⟩
  obtain ⟨c, cs, hcs⟩ := List.exists_cons_of_ne_nil hbits
  simp [State.frameSymbols, hcs, bitSymbol_ne_rst]

/-! ### The settled statements -/

/-- Settles O29: pulse by pulse, the high phase is read as the bit it conforms to, and a low period is an `RST` exactly
where the trace has one. -/
theorem conformingTimelineDecodes : Obligations.ConformingTimelineDecodes :=
  fun _ _ _ htol h => receivedTrace_of_conforms htol h

/-- Settles O32: the frame conforms by itself, and it begins high, so it joins what conforms before it. -/
theorem capturedFrameConforms : Obligations.CapturedFrameConforms := by
  intro s ignored hp hseq
  obtain ⟨hstart, hps, hhead⟩ := s.conformingPulses_frame s.par.tolNs hp
  have hconf : conformsTimeline s.par.tolNs s.frameSymbols (captureNs s.frameSegments) = true :=
    conformsTimeline_iff.mpr (.inr ⟨by rw [hstart]; decide, hhead, hps⟩)
  refine ⟨s.transmit, s.frameSegments, s.frameSymbols, exec_transmit_of_idle hseq ignored, s.transmit_wire,
    s.transmit_syms, hconf, fun htol => receivedTrace_of_conforms htol hconf, fun idle htol => ?_, fun htol h => ?_⟩
  · rw [captureNs_low, hstart, Nat.zero_add,
      receivedTrace_of_pulses (tl := ⟨cyclesToNs idle, _⟩) (hps.received htol)]
    simp only [afterLow, conformsReset, decide_eq_true_eq]
  · rw [State.conforms, State.transmit_wire, State.transmit_syms, State.transmit_par]
    refine Bool.or_eq_true_iff.mpr ((Bool.or_eq_true_iff.mp h).imp (fun h => ?_) fun h => ?_)
    · exact conformsTimeline_append htol h hstart hps hhead
    · exact conformsTimeline_append htol h hstart hps hhead

end Sys2Proof.Machine
end

section
/-! Edges through a transmission (R122 to R126): each phase in as many edges as it has cycles, and so each
micro-operation and each symbol of a frame. -/

namespace Sys2Proof.Machine

section
variable {s t u : State}

/-! ### Runs of edges -/

theorem runEdges_succ (k : Nat) (s : State) : runEdges (k + 1) s = andThen (edge s) (runEdges k) := rfl

/-- After `j` edges that answer, the next `k` go on from there. -/
theorem runEdges_add {j : Nat} (h : runEdges j s = .next t) (k : Nat) : runEdges (j + k) s = runEdges k t := by
  induction j generalizing s with
  | zero =>
    obtain rfl := Host.Outcome.next.inj h
    rw [Nat.zero_add]
  | succ j ih =>
    obtain ⟨v, hv, ht⟩ := andThen_eq_next ((runEdges_succ j s).symm.trans h)
    rw [Nat.succ_add, runEdges_succ, hv, andThen_next]
    exact ih ht

theorem runEdges_one (s : State) : runEdges 1 s = edge s := by
  rw [runEdges_succ]
  cases edge s <;> rfl

/-- `k` edges lead from `s` to `t`, and each begins inside a transmission. -/
def Transmits (k : Nat) (s t : State) : Prop :=
  runEdges k s = .next t ∧ ∀ j < k, ∃ v, runEdges j s = .next v ∧ v.seq.transmitting = true

theorem Transmits.refl (s : State) : Transmits 0 s s := ⟨rfl, nofun⟩

theorem Transmits.trans {j k : Nat} (h : Transmits j s t) (h' : Transmits k t u) : Transmits (j + k) s u := by
  obtain ⟨hrun, htx⟩ := h
  obtain ⟨hrun', htx'⟩ := h'
  refine ⟨(runEdges_add hrun k).trans hrun', fun i hi => ?_⟩
  by_cases hij : i < j
  · exact htx i hij
  · obtain ⟨d, rfl⟩ := Nat.exists_eq_add_of_le (not_lt.mp hij)
    rw [runEdges_add hrun]
    exact htx' d (by omega)

/-- An edge inside a transmission is the sequencer's own and consumes one input. -/
theorem transmits_one (htx : s.seq.transmitting = true) (hr : s.released) (h : sequencerEdge s = .next t) :
    ∃ osc, Transmits 1 s (t.consumed 1 osc) := by
  have hidle : s.seq ≠ .idle := State.not_idle_of_transmitting htx
  have hacc : s.accepted = none := State.accepted_of_not_idle hidle
  have hout : t.outside = s.outside := (Move.of_sequencerEdge (g := .cycle) hacc h).keeps_outside
  refine ⟨t.oscFault || s.input.oscFaultSet, ?_, fun j hj => ⟨s, ?_, htx⟩⟩
  · rw [runEdges_one, edge_of_released (State.rstN_of_released hr), edgeBody_of_not_accepted hacc, h, andThen_next,
      State.sample_eq_consumed hidle hout]
  · rw [Nat.lt_one_iff.mp hj]
    rfl

/-- Runs whose states are written with the inputs consumed so far. -/
theorem Transmits.trans_consumed {j k : Nat} {o : Bool} (h : Transmits j s (t.consumed j o))
    (h' : ∃ o', Transmits k (t.consumed j o) ((u.consumed j o).consumed k o')) :
    ∃ o', Transmits (j + k) s (u.consumed (j + k) o') := by
  obtain ⟨o', hu⟩ := h'
  rw [State.consumed_consumed] at hu
  exact ⟨o', h.trans hu⟩

/-! ### One phase -/

/-- A cycle more of the last segment. -/
theorem extendWire_append (w : List Segment) (l : Level) (n : Nat) :
    extendWire (w ++ [⟨l, n⟩]) l = w ++ [⟨l, n + 1⟩] := by
  induction w with
  | nil => simp [extendWire]
  | cons seg w ih =>
    cases w with
    | nil => simp [extendWire]
    | cons seg' w => simpa [extendWire] using ih

/-- The state `k` edges after the first cycle of a phase began, with the cycles recorded so far. -/
def State.ticked (s : State) (k : Nat) : State :=
  { s with cnt := s.cnt - k, wire := s.wire ++ if k = 0 then [] else [⟨s.dout, k⟩] }

/-- The cycle that an edge records begins the segment of its phase or extends it. -/
theorem State.record_ticked {n k : Nat} (hfirst : s.cnt + 1 = n) (hk : k ≤ s.cnt) :
    (s.ticked k).record n = { s.ticked k with wire := s.wire ++ [⟨s.dout, k + 1⟩] } := by
  cases k with
  | zero => simp [State.ticked, State.record, hfirst]
  | succ k =>
    have hne : s.cnt - (k + 1) + 1 ≠ n := by omega
    simp [State.ticked, State.record, hne, extendWire_append]

theorem State.ticked_succ {n k : Nat} (hfirst : s.cnt + 1 = n) (hk : k ≤ s.cnt) :
    { (s.ticked k).record n with cnt := s.cnt - k - 1 } = s.ticked (k + 1) := by
  rw [State.record_ticked hfirst hk]
  simp [State.ticked, Nat.sub_sub]

/-- The last cycle of a phase completes its segment. -/
theorem State.record_ticked_cnt {n : Nat} (hfirst : s.cnt + 1 = n) :
    (s.ticked s.cnt).record n = { s with cnt := 0, wire := s.wire ++ [⟨s.dout, n⟩] } := by
  rw [State.record_ticked hfirst le_rfl, hfirst]
  simp [State.ticked]

/-! ### The edges of a phase, by the cycles that are left -/

theorem sequencerEdge_tick (htx : s.seq.transmitting = true) (hcnt : 0 < s.cnt) :
    sequencerEdge s = .next { s.record s.phaseCycles with cnt := s.cnt - 1 } := by
  unfold sequencerEdge State.phaseCycles
  cases hseq : s.seq with
  | txHigh => simp [State.edgeHigh, hcnt]
  | txLow => simp [State.edgeLow, hcnt]
  | txLatch => simp [State.edgeLatch, hcnt]
  | _ => simp [hseq, Seq.transmitting] at htx

theorem sequencerEdge_fall (hseq : s.seq = .txHigh) (hcnt : s.cnt = 0) :
    sequencerEdge s =
      .next { s.record (highCycles s.curBit) with dout := false, cnt := lowCycles s.curBit - 1, seq := .txLow } := by
  simp [sequencerEdge, hseq, State.edgeHigh, hcnt]

theorem sequencerEdge_lowEnd (hseq : s.seq = .txLow) (hcnt : s.cnt = 0) :
    sequencerEdge s = ((s.record (lowCycles s.curBit)).sym (bitSymbol s.curBit)).nextSymbol := by
  simp [sequencerEdge, hseq, State.edgeLow, hcnt]

theorem sequencerEdge_latchEnd (hseq : s.seq = .txLatch) (hcnt : s.cnt = 0) :
    sequencerEdge s = .next { (s.record s.par.tResetCyc).sym .rst with seq := .idle } := by
  simp [sequencerEdge, hseq, State.edgeLatch, hcnt]

/-! ### A whole phase -/

/-- A phase, up to its last cycle. -/
theorem transmits_ticked (htx : s.seq.transmitting = true) (hfirst : s.cnt + 1 = s.phaseCycles) (hr : s.released)
    {k : Nat} (hk : k ≤ s.cnt) : ∃ osc, Transmits k s ((s.ticked k).consumed k osc) := by
  induction k with
  | zero =>
    have hzero : s.ticked 0 = s := by simp [State.ticked]
    rw [hzero]
    exact ⟨s.oscFault, .refl s⟩
  | succ k ih =>
    obtain ⟨osc, hrun⟩ := ih (by omega)
    have hedge : sequencerEdge ((s.ticked k).consumed k osc) = .next ((s.ticked (k + 1)).consumed k osc) :=
      (sequencerEdge_tick (s := (s.ticked k).consumed k osc) htx (Nat.sub_pos_of_lt hk)).trans
        (congrArg (fun x => Host.Outcome.next (State.consumed x k osc)) (State.ticked_succ hfirst (by omega)))
    exact hrun.trans_consumed (transmits_one htx (State.released_consumed (s := s.ticked k) hr k osc) hedge)

/-- A whole phase, of which `last` is the state after its last edge. -/
theorem transmits_phase {last : State} (htx : s.seq.transmitting = true) (hfirst : s.cnt + 1 = s.phaseCycles)
    (hr : s.released) (hlast : ∀ n osc, sequencerEdge ((s.ticked s.cnt).consumed n osc) = .next (last.consumed n osc)) :
    ∃ osc, Transmits s.phaseCycles s (last.consumed s.phaseCycles osc) := by
  obtain ⟨osc, hrun⟩ := transmits_ticked htx hfirst hr le_rfl
  rw [← hfirst]
  exact hrun.trans_consumed (transmits_one htx (State.released_consumed (s := s.ticked s.cnt) hr _ osc) (hlast _ osc))

/-- The state at the first cycle of the low phase (R124). -/
def State.fallen (s : State) : State :=
  { s with
    wire := s.wire ++ [⟨s.dout, highCycles s.curBit⟩]
    dout := false
    cnt := lowCycles s.curBit - 1
    seq := .txLow }

theorem transmits_high (hseq : s.seq = .txHigh) (hfirst : s.cnt + 1 = highCycles s.curBit) (hr : s.released) :
    ∃ osc, Transmits (highCycles s.curBit) s (s.fallen.consumed (highCycles s.curBit) osc) := by
  have htx : s.seq.transmitting = true := by rw [hseq]; rfl
  have hphase : s.phaseCycles = highCycles s.curBit := by simp only [State.phaseCycles, hseq]
  refine hphase ▸ transmits_phase htx (hfirst.trans hphase.symm) hr fun n osc => ?_
  refine (sequencerEdge_fall (s := (s.ticked s.cnt).consumed n osc) hseq (Nat.sub_self s.cnt)).trans ?_
  exact congrArg
    (fun r : State => Host.Outcome.next
      (State.consumed { r with dout := false, cnt := lowCycles s.curBit - 1, seq := .txLow } n osc))
    (State.record_ticked_cnt hfirst)

/-- A bit symbol complete at the end of its low phase (R125). -/
def State.lowEnded (s : State) : State :=
  { s with
    wire := s.wire ++ [⟨s.dout, lowCycles s.curBit⟩]
    cnt := 0
    syms := s.syms ++ [bitSymbol s.curBit] }

/-- The advance reads no input. -/
theorem State.nextSymbol_consumed (h : s.nextSymbol = .next t) (n : Nat) (osc : Bool) :
    (s.consumed n osc).nextSymbol = .next (t.consumed n osc) := by
  rcases State.nextSymbol_eq_next h with ⟨hp, rfl⟩ | ⟨k, j, hp, hk, rfl⟩
  · exact State.nextSymbol_of_none (s := s.consumed n osc) hp
  · exact (State.nextSymbol_of_some (s := s.consumed n osc) hp).trans
      (State.beginSymbol_eq_symbolStart (s := s.consumed n osc) j hk)

theorem transmits_low (hseq : s.seq = .txLow) (hfirst : s.cnt + 1 = lowCycles s.curBit) (hr : s.released)
    (hnext : s.lowEnded.nextSymbol = .next t) :
    ∃ osc, Transmits (lowCycles s.curBit) s (t.consumed (lowCycles s.curBit) osc) := by
  have htx : s.seq.transmitting = true := by rw [hseq]; rfl
  have hphase : s.phaseCycles = lowCycles s.curBit := by simp only [State.phaseCycles, hseq]
  refine hphase ▸ transmits_phase htx (hfirst.trans hphase.symm) hr fun n osc => ?_
  refine (sequencerEdge_lowEnd (s := (s.ticked s.cnt).consumed n osc) hseq (Nat.sub_self s.cnt)).trans ?_
  refine Eq.trans ?_ (State.nextSymbol_consumed hnext n osc)
  exact congrArg (fun r : State => State.nextSymbol (State.consumed (r.sym (bitSymbol s.curBit)) n osc))
    (State.record_ticked_cnt hfirst)

/-- The state after the latch period (R126). -/
def State.latchEnded (s : State) : State :=
  { s with
    wire := s.wire ++ [⟨s.dout, s.par.tResetCyc⟩]
    cnt := 0
    syms := s.syms ++ [.rst]
    seq := .idle }

theorem transmits_latch (hseq : s.seq = .txLatch) (hfirst : s.cnt + 1 = s.par.tResetCyc) (hr : s.released) :
    ∃ osc, Transmits s.par.tResetCyc s (s.latchEnded.consumed s.par.tResetCyc osc) := by
  have htx : s.seq.transmitting = true := by rw [hseq]; rfl
  have hphase : s.phaseCycles = s.par.tResetCyc := by simp only [State.phaseCycles, hseq]
  refine hphase ▸ transmits_phase htx (hfirst.trans hphase.symm) hr fun n osc => ?_
  refine (sequencerEdge_latchEnd (s := (s.ticked s.cnt).consumed n osc) hseq (Nat.sub_self s.cnt)).trans ?_
  exact congrArg (fun r : State => Host.Outcome.next (State.consumed { r.sym .rst with seq := .idle } n osc))
    (State.record_ticked_cnt hfirst)

/-! ### A whole bit symbol -/

/-- The advance reads neither `CNT` nor `SEQ`, and writes both. -/
theorem State.nextSymbol_of_cnt_seq (h : s.nextSymbol = .next t) (c : Nat) (q : Seq) :
    ({ s with cnt := c, seq := q } : State).nextSymbol = .next t := by
  rcases State.nextSymbol_eq_next h with ⟨hp, rfl⟩ | ⟨k, j, hp, hk, rfl⟩
  · exact State.nextSymbol_of_none (s := { s with cnt := c, seq := q }) hp
  · exact (State.nextSymbol_of_some (s := { s with cnt := c, seq := q }) hp).trans
      (State.beginSymbol_eq_symbolStart (s := { s with cnt := c, seq := q }) j hk)

/-- A symbol's two phases, edge by edge, are the pulse of R106 and R107 and the advance. -/
theorem transmits_symbol (hseq : s.seq = .txHigh) (hfirst : s.cnt + 1 = highCycles s.curBit) (hline : s.dout = true)
    (hr : s.released) (hnext : (s.pulseBit s.curBit).nextSymbol = .next t) :
    ∃ osc, Transmits (highCycles s.curBit + lowCycles s.curBit) s
      (t.consumed (highCycles s.curBit + lowCycles s.curBit) osc) := by
  obtain ⟨osc, hhigh⟩ := transmits_high hseq hfirst hr
  have hfirst' : lowCycles s.curBit - 1 + 1 = lowCycles s.curBit := Nat.sub_add_cancel (lowCycles_pos _)
  have hended : s.fallen.lowEnded = { s.pulseBit s.curBit with cnt := 0, seq := .txLow } := by
    simp [State.fallen, State.lowEnded, State.pulseBit, State.emit, State.sym, hline]
  have hnext' : s.fallen.lowEnded.nextSymbol = .next t := hended ▸ State.nextSymbol_of_cnt_seq hnext 0 .txLow
  exact hhigh.trans_consumed (transmits_low (s := s.fallen.consumed (highCycles s.curBit) osc) rfl hfirst'
    (State.released_consumed (s := s.fallen) hr _ osc) (State.nextSymbol_consumed hnext' _ osc))

/-- The latch period with the line low is the operation `RESET`. -/
theorem State.latchEnded_of_low (hline : s.dout = false) :
    s.latchEnded = { s.pulseLatch with cnt := 0, seq := .idle } := by
  simp [State.latchEnded, State.pulseLatch, State.emit, State.sym, hline]

end

end Sys2Proof.Machine
end

section
/-! The cycle level refines the operation level (R128): buffer operations, micro-operations, and a whole frame. -/

namespace Sys2Proof.Machine

section
variable {s t u : State}

/-- Off `IDLE` sampling, too, changes nothing that the comparison of the two levels looks at. -/
theorem sameButInputs_sample (hseq : s.seq ≠ .idle) (ht : t.outside = s.outside) (n : Nat) (osc : Bool) :
    sameButInputs (t.consumed n osc) (t.sample s) := by
  rw [State.sample_eq_consumed hseq ht]
  rfl

theorem step_of_stepBody (hr : s.released) (h : stepBody s = .next t) : step s = .next (t.sample s) := by
  rw [step_of_released (State.rstN_of_released hr), h, andThen_next]

theorem edge_of_edgeBody (hr : s.released) (h : edgeBody s = .next t) : edge s = .next (t.sample s) := by
  rw [edge_of_released (State.rstN_of_released hr), h, andThen_next]

/-! ### Buffer operations -/

theorem State.accepted_of_idle {w : CmdWord} (hseq : s.seq = .idle) (hcmd : s.input.cmd = some w) :
    s.accepted = some (decode w) := by
  rw [State.accepted, if_pos hseq, hcmd, Option.map_some]

theorem edgeBody_of_idle {w : CmdWord} (hseq : s.seq = .idle) (hcmd : s.input.cmd = some w) :
    edgeBody s = accept (decode w) s := edgeBody_of_accepted (State.accepted_of_idle hseq hcmd)

/-- The edge after `EXEC` returns to `IDLE` and consumes one input. -/
theorem edge_of_exec (hseq : s.seq = .exec) (hr : s.released) :
    ∃ osc, edge s = .next (({ s with seq := .idle } : State).consumed 1 osc) := by
  have hidle : s.seq ≠ .idle := by simp [hseq]
  have hbody : edgeBody s = .next { s with seq := .idle } := by
    rw [edgeBody_of_not_accepted (State.accepted_of_not_idle hidle), sequencerEdge, hseq]
  exact ⟨_, (edge_of_edgeBody hr hbody).trans (congrArg _ (State.sample_eq_consumed hidle rfl))⟩

/-- An operation that the acceptance edge does whole, and the edge back from `EXEC`. -/
theorem runEdges_store {w : CmdWord} (hseq : s.seq = .idle) (hcmd : s.input.cmd = some w) (hr : s.released)
    (htseq : t.seq = .idle) (haccept : accept (decode w) s = .next { t with seq := .exec }) :
    ∃ osc, runEdges 2 s = .next ((t.sample s).consumed 1 osc) := by
  have hfirst := edge_of_edgeBody hr ((edgeBody_of_idle hseq hcmd).trans haccept)
  have hr' : (({ t with seq := .exec } : State).sample s).released := State.released_sample hr _
  obtain ⟨osc, hsecond⟩ := edge_of_exec (s := ({ t with seq := .exec } : State).sample s) rfl hr'
  refine ⟨osc, ?_⟩
  rw [runEdges_succ, hfirst, andThen_next, runEdges_one, hsecond, ← htseq]
  rfl

/-! ### Micro-operations -/

/-- No command word is a micro-operation (R77). -/
theorem decode_isMicro (w : CmdWord) : (decode w).isMicro = false :=
  decode_induction (motive := fun i => i.isMicro = false) w (fun _ => rfl) (fun _ => rfl) (fun _ _ _ _ => rfl) fun _ => rfl

/-- A step runs a micro-operation at the first cycle of a symbol or of the latch period only. -/
theorem State.current_of_isMicro {i : Instr} (hcur : s.current = some i) (hi : i.isMicro = true) :
    (s.seq = .txHigh ∧ s.cnt + 1 = highCycles s.curBit ∧
        operationCycles s i = highCycles s.curBit + lowCycles s.curBit) ∨
      (s.seq = .txLatch ∧ s.cnt + 1 = s.par.tResetCyc ∧ operationCycles s i = s.par.tResetCyc) := by
  unfold State.current at hcur
  cases hseq : s.seq with
  | idle =>
    rw [hseq] at hcur
    obtain ⟨w, -, rfl⟩ := Option.map_eq_some_iff.mp hcur
    exact absurd (hi.symm.trans (decode_isMicro w)) (by decide)
  | txHigh =>
    simp only [hseq, Option.ite_none_right_eq_some, Option.some.injEq] at hcur
    obtain ⟨hfirst, rfl⟩ := hcur
    refine .inl ⟨rfl, hfirst, ?_⟩
    cases s.curBit <;> rfl
  | txLatch =>
    simp only [hseq, Option.ite_none_right_eq_some, Option.some.injEq] at hcur
    obtain ⟨hfirst, rfl⟩ := hcur
    exact .inr ⟨rfl, hfirst, rfl⟩
  | exec | txLow => simp [hseq] at hcur
  | _ =>
    simp only [hseq, Option.some.injEq] at hcur
    subst hcur
    exact absurd hi (by decide)

end

/-! ### The settled statements -/

/-- Settles O57: the acceptance edge does what the operation does, and `EXEC` lasts one edge. -/
theorem edgesRefineBufferOperations : Obligations.EdgesRefineBufferOperations := by
  intro s w hseq hr hcmd hop
  have hstep {t : State} (h : exec (decode w) s = .next t) : step s = .next (t.sample s) :=
    step_of_stepBody hr ((stepBody_of_idle hseq hcmd).trans h)
  rcases exec_decode_of_idle (w := w) hseq with ⟨h, hexec⟩ | ⟨h, hexec⟩ | ⟨h, hexec⟩ | ⟨h, -⟩
  · have haccept : accept (decode w) s = .next (s.illegal (operandBits w)) := by rw [decode_of_reserved h]; rfl
    refine ⟨fun _ => ?_, fun hne => absurd h hne⟩
    exact (hstep hexec).trans (edge_of_edgeBody hr ((edgeBody_of_idle hseq hcmd).trans haccept)).symm
  · have htseq : s.clearFb.seq = .idle := by rw [State.clearFb_frame]; exact hseq
    obtain ⟨osc, hrun⟩ := runEdges_store hseq hcmd hr htseq (by rw [decode_of_clear h]; rfl)
    exact ⟨fun h0 => absurd (h0.symm.trans h) (by decide), fun _ => ⟨_, _, hstep hexec, hrun, rfl⟩⟩
  · have htseq := (s.setLed_seq (idxField w) (redField w) (greenField w) (blueField w)).trans hseq
    obtain ⟨osc, hrun⟩ := runEdges_store hseq hcmd hr htseq (by rw [decode_of_set h]; rfl)
    exact ⟨fun h0 => absurd (h0.symm.trans h) (by decide), fun _ => ⟨_, _, hstep hexec, hrun, rfl⟩⟩
  · exact absurd h hop

/-- Settles O58: a symbol and a latch period last as many edges as their cycles, and sampling differs in the inputs
only. -/
theorem edgesRefineMicroOperations : Obligations.EdgesRefineMicroOperations := by
  intro s u i hi hr hcur hmicro hstep
  rw [step_of_released (State.rstN_of_released hr)] at hstep
  rcases State.current_of_isMicro hcur hmicro with ⟨hseq, hfirst, hcycles⟩ | ⟨hseq, hfirst, hcycles⟩ <;> rw [hcycles]
  · rw [stepBody_of_first_high hseq hfirst] at hstep
    obtain ⟨t, ht, hu⟩ := andThen_eq_next hstep
    obtain rfl := Host.Outcome.next.inj hu
    obtain ⟨osc, hrun, -⟩ := transmits_symbol hseq hfirst (hi.line.mpr hseq) hr ht
    exact ⟨_, hrun, sameButInputs_sample (by simp [hseq]) (Move.of_pulse hseq hfirst ht).keeps_outside _ _⟩
  · rw [stepBody_of_first_latch hseq hfirst] at hstep
    obtain rfl := Host.Outcome.next.inj hstep
    have hline : s.dout = false := ((inv_iff s).mp hi).2.dout_eq_false (by simp [hseq])
    obtain ⟨osc, hrun, -⟩ := transmits_latch hseq hfirst hr
    rw [State.latchEnded_of_low hline] at hrun
    exact ⟨_, hrun, sameButInputs_sample (by simp [hseq]) (Move.latch hseq hfirst).keeps_outside _ _⟩

end Sys2Proof.Machine
end

section
/-! A whole frame edge by edge (R123 to R128): the state before each bit, from one bit to the next, and the frame as the
operation `TRANSMIT` sends it. -/

namespace Sys2Proof.Machine

section
variable {s t u : State}

/-! ### The state before each bit of the frame -/

/-- The state at the first cycle of bit `m` of the frame, with the bits before it sent, but for the inputs. -/
def State.frameAt (s : State) (m : Nat) : State :=
  ({ s with
      wire := s.wire ++ (s.frameBits.take m).flatMap symbolSegments
      syms := s.syms ++ (s.frameBits.take m).map bitSymbol } : State).symbolStart (m / 8) (BitVec.ofNat 3 (7 - m % 8))

theorem State.frameAt_zero (s : State) : s.frameAt 0 = s.symbolStart 0 7#3 := by simp [State.frameAt]

/-- Bit `m` of the frame is the bit that the state before it sends. -/
theorem State.frameAt_curBit (s : State) (m : Nat) : (s.frameAt m).curBit = s.frameBit m := by
  have hbit : (BitVec.ofNat 3 (7 - m % 8)).toNat = 7 - m % 8 := by
    rw [BitVec.toNat_ofNat]
    omega
  show (s.fbByte (m / 8)).getLsbD (BitVec.ofNat 3 (7 - m % 8)).toNat = _
  rw [hbit]
  rfl

theorem State.take_succ_frameBits {m : Nat} (hm : m < 24 * s.par.n) :
    s.frameBits.take (m + 1) = s.frameBits.take m ++ [s.frameBit m] := by
  have hget : s.frameBits[m]? = some (s.frameBit m) := by simp [State.frameBits, hm]
  rw [List.take_add_one, hget]
  rfl

/-- After bit `m` comes bit `m + 1`, unless it was the last one. -/
theorem State.frameAt_nextPlace {m : Nat} (hm : m < 24 * s.par.n) :
    (s.frameAt m).nextPlace =
      if m + 1 < 24 * s.par.n then some ((m + 1) / 8, BitVec.ofNat 3 (7 - (m + 1) % 8)) else none := by
  have hlen : s.par.fbLen = 3 * s.par.n := rfl
  show (if 0#3 < BitVec.ofNat 3 (7 - m % 8) then some (m / 8, BitVec.ofNat 3 (7 - m % 8) - 1#3)
    else if m / 8 < s.par.fbLen - 1 then some (m / 8 + 1, 7#3) else none) = _
  by_cases hlast : m % 8 = 7
  · have hbit : BitVec.ofNat 3 (7 - m % 8) = 0#3 := by rw [hlast]
    have hbit' : BitVec.ofNat 3 (7 - (m + 1) % 8) = 7#3 := by
      have h0 : (m + 1) % 8 = 0 := by omega
      rw [h0]
    have hdiv : (m + 1) / 8 = m / 8 + 1 := by omega
    have hiff : m / 8 < s.par.fbLen - 1 ↔ m + 1 < 24 * s.par.n := by omega
    rw [hbit, hbit', hdiv, if_neg (by decide)]
    simp only [hiff]
  · have hpos : 0#3 < BitVec.ofNat 3 (7 - m % 8) := by
      rw [BitVec.lt_def, BitVec.toNat_ofNat, BitVec.toNat_ofNat]
      omega
    have hpred : BitVec.ofNat 3 (7 - m % 8) - 1#3 = BitVec.ofNat 3 (7 - (m + 1) % 8) := by
      apply BitVec.eq_of_toNat_eq
      rw [BitVec.toNat_sub, BitVec.toNat_ofNat, BitVec.toNat_ofNat, BitVec.toNat_ofNat]
      omega
    have hdiv : (m + 1) / 8 = m / 8 := by omega
    rw [if_pos hpos, hpred, hdiv, if_pos (by omega)]

/-! ### From bit to bit -/

/-- The pulse of bit `m` leaves the histories of the state before bit `m + 1`. -/
theorem State.frameAt_pulseBit {m : Nat} (hm : m < 24 * s.par.n) :
    (s.frameAt m).pulseBit (s.frameBit m) =
      { s.frameAt m with
        wire := s.wire ++ (s.frameBits.take (m + 1)).flatMap symbolSegments
        syms := s.syms ++ (s.frameBits.take (m + 1)).map bitSymbol
        dout := false } := by
  rw [State.pulseBit_eq, State.take_succ_frameBits hm, List.flatMap_append, List.map_append, ← List.append_assoc,
    ← List.append_assoc, List.flatMap_singleton]
  rfl

/-- The state at the first cycle of the latch period of the frame, but for the inputs. -/
def State.frameLatch (s : State) : State :=
  { s.frameAt (24 * s.par.n - 1) with
    wire := s.wire ++ s.frameBits.flatMap symbolSegments
    syms := s.syms ++ s.frameBits.map bitSymbol
    dout := false
    cnt := s.par.tResetCyc - 1
    seq := .txLatch }

theorem State.frameAt_nextSymbol {m : Nat} (hm : m + 1 < 24 * s.par.n) :
    ((s.frameAt m).pulseBit (s.frameBit m)).nextSymbol = .next (s.frameAt (m + 1)) := by
  have hplace : ((s.frameAt m).pulseBit (s.frameBit m)).nextPlace =
      some ((m + 1) / 8, BitVec.ofNat 3 (7 - (m + 1) % 8)) :=
    (State.frameAt_nextPlace (s := s) (by omega)).trans (if_pos hm)
  have hk : (m + 1) / 8 < ((s.frameAt m).pulseBit (s.frameBit m)).par.fbLen := by
    show (m + 1) / 8 < 3 * s.par.n
    omega
  rw [State.nextSymbol_of_some hplace, State.beginSymbol_eq_symbolStart _ hk,
    State.frameAt_pulseBit (s := s) (by omega)]
  rfl

theorem State.frameAt_last_nextSymbol (hn : 0 < s.par.n) :
    ((s.frameAt (24 * s.par.n - 1)).pulseBit (s.frameBit (24 * s.par.n - 1))).nextSymbol =
      .next s.frameLatch := by
  have hm : 24 * s.par.n - 1 < 24 * s.par.n := by omega
  have hlast : 24 * s.par.n - 1 + 1 = 24 * s.par.n := by omega
  have hall : s.frameBits.take (24 * s.par.n - 1 + 1) = s.frameBits := by
    rw [hlast, ← State.length_frameBits, List.take_length]
  have hplace : ((s.frameAt (24 * s.par.n - 1)).pulseBit (s.frameBit (24 * s.par.n - 1))).nextPlace = none :=
    (State.frameAt_nextPlace hm).trans (if_neg (by omega))
  rw [State.nextSymbol_of_none hplace, State.frameAt_pulseBit hm, hall]
  rfl

/-! ### The edges of a frame -/

/-- The cycles of the first `m` bits. -/
def State.cyclesBefore (s : State) (m : Nat) : Nat := wireCycles ((s.frameBits.take m).flatMap symbolSegments)

theorem State.cyclesBefore_succ {m : Nat} (hm : m < 24 * s.par.n) :
    s.cyclesBefore (m + 1) = s.cyclesBefore m + (highCycles (s.frameBit m) + lowCycles (s.frameBit m)) := by
  rw [State.cyclesBefore, State.take_succ_frameBits hm, List.flatMap_append, wireCycles_append, List.flatMap_singleton,
    wireCycles_symbolSegments]
  rfl

/-- The edges of one bit of the frame, whatever comes after it. -/
theorem transmits_frameBit {m : Nat} (hr : s.released)
    (hnext : ((s.frameAt m).pulseBit (s.frameBit m)).nextSymbol = .next t) (n : Nat) (o : Bool) :
    ∃ osc, Transmits (highCycles (s.frameBit m) + lowCycles (s.frameBit m)) ((s.frameAt m).consumed n o)
      ((t.consumed n o).consumed (highCycles (s.frameBit m) + lowCycles (s.frameBit m)) osc) := by
  have hfirst : (s.frameAt m).cnt + 1 = highCycles (s.frameAt m).curBit := Nat.sub_add_cancel (highCycles_pos _)
  rw [← State.frameAt_curBit] at hnext ⊢
  exact transmits_symbol (s := (s.frameAt m).consumed n o) rfl hfirst rfl
    (State.released_consumed (s := s.frameAt m) hr n o) (State.nextSymbol_consumed hnext n o)

theorem transmits_frameAt (hr : s.released) {m : Nat} (hm : m < 24 * s.par.n) :
    ∃ osc, Transmits (s.cyclesBefore m) (s.frameAt 0) ((s.frameAt m).consumed (s.cyclesBefore m) osc) := by
  induction m with
  | zero => exact ⟨(s.frameAt 0).oscFault, .refl _⟩
  | succ m ih =>
    obtain ⟨osc, hrun⟩ := ih (by omega)
    rw [State.cyclesBefore_succ (by omega)]
    exact hrun.trans_consumed (transmits_frameBit hr (State.frameAt_nextSymbol hm) _ osc)

/-- The whole frame: its bits, and then the latch period. -/
theorem transmits_frame (hr : s.released) (hp : s.par.wellFormed) :
    ∃ osc, Transmits s.frameCycles (s.symbolStart 0 7#3) (s.frameLatch.latchEnded.consumed s.frameCycles osc) := by
  obtain ⟨hn, -, hreset, -, -⟩ := hp
  have hm : 24 * s.par.n - 1 < 24 * s.par.n := by omega
  obtain ⟨o, hbits⟩ := transmits_frameAt hr hm
  obtain ⟨o', hlast⟩ := hbits.trans_consumed (transmits_frameBit hr (State.frameAt_last_nextSymbol hn) _ o)
  rw [← State.cyclesBefore_succ hm] at hlast
  have hlatch : s.frameLatch.cnt + 1 = s.par.tResetCyc := by
    unfold Config.tResetMin at hreset
    exact Nat.sub_add_cancel (by omega)
  have hcycles : s.cyclesBefore (24 * s.par.n - 1 + 1) + s.par.tResetCyc = s.frameCycles := by
    rw [Nat.sub_add_cancel (by omega), State.cyclesBefore, ← State.length_frameBits, List.take_length,
      wireCycles_symbols, ← State.zeroBits_eq_count]
    rfl
  rw [← hcycles, ← State.frameAt_zero]
  exact hlast.trans_consumed (transmits_latch (s := s.frameLatch.consumed _ o') rfl hlatch
    (State.released_consumed (s := s.frameLatch) hr _ o'))

/-- What a frame leaves: the record of `TRANSMIT`, but for three working registers. -/
theorem State.frameLatch_latchEnded_eq (s : State) :
    ∃ k j c,
      s.frameLatch.latchEnded =
        { s with
          wire := s.wire ++ s.frameSegments
          syms := s.syms ++ s.frameSymbols
          dout := false
          byteIdx := k
          bitIdx := j
          curBit := c
          cnt := 0
          seq := .idle } := by
  refine ⟨s.frameLatch.byteIdx, s.frameLatch.bitIdx, s.frameLatch.curBit, ?_⟩
  rw [State.frameSegments, State.frameSymbols, ← List.append_assoc, ← List.append_assoc]
  rfl

/-- The acceptance edge begins the frame. -/
theorem edge_of_transmit {w : CmdWord} (hr : s.released) (hseq : s.seq = .idle) (hcmd : s.input.cmd = some w)
    (hop : opField w = 0b11#2) (hlen : 0 < s.par.fbLen) :
    edge s = .next ((s.sample s).symbolStart 0 7#3) := by
  have haccept : accept (decode w) s = .next (s.symbolStart 0 7#3) := by
    rw [decode_of_transmit hop]
    exact State.beginSymbol_eq_symbolStart 7#3 hlen
  exact edge_of_edgeBody hr ((edgeBody_of_idle hseq hcmd).trans haccept)

end

/-! ### The settled statement -/

/-- Settles O56: the acceptance edge, the edges of the frame, and the operation's record beside them. -/
theorem edgesRefineTransmit : Obligations.EdgesRefineTransmit := by
  intro s w hp hseq hr hcmd hop
  have hlen : 0 < s.par.fbLen := by
    obtain ⟨hn, -, -, -, -⟩ := hp
    exact Nat.mul_pos (by decide) hn
  have hexec : exec (decode w) s = .next s.transmit := by
    rw [decode_of_transmit hop]
    exact exec_transmit_of_idle hseq _
  have hstep : step s = .next (s.transmit.sample s) :=
    step_of_stepBody hr ((stepBody_of_idle hseq hcmd).trans hexec)
  have hedge := edge_of_transmit hr hseq hcmd hop hlen
  obtain ⟨osc, hrun, htx⟩ := transmits_frame (s := s.sample s) (State.released_sample hr s) hp
  obtain ⟨_, _, _, hended⟩ := (s.sample s).frameLatch_latchEnded_eq
  rw [hended] at hrun
  rw [State.transmit_eq] at hstep
  refine ⟨_, _, hstep, (runEdges_add ((runEdges_one s).trans hedge) _).trans hrun, rfl, rfl, rfl, rfl, ?_⟩
  intro k hk0 hk
  obtain ⟨j, rfl⟩ := Nat.exists_eq_add_of_le hk0
  rw [runEdges_add ((runEdges_one s).trans hedge)]
  exact htx j (Nat.lt_of_add_lt_add_left hk)

end Sys2Proof.Machine
end

section
/-! The text of host programs (R84): what a line's text is read as, operand by operand, and the words of a program. -/

namespace Sys2Proof.Machine

/-! ### A line without its blanks and its comment -/

/-- A character that a command or an operand is written with: none that ends the line, parts it, or is dropped. -/
def IsPlain (c : Char) : Prop := c ≠ ';' ∧ c ≠ ' ' ∧ c ≠ '\t' ∧ c ≠ ','

theorem filter_of_plain {cs : List Char} (h : ∀ c ∈ cs, IsPlain c) :
    cs.filter (fun c => c ≠ ' ' && c ≠ '\t') = cs := by
  refine List.filter_eq_self.mpr fun c hc => ?_
  obtain ⟨-, hblank, htab, -⟩ := h c hc
  simp [hblank, htab]

/-- Neither blanks nor a comment leave anything. -/
theorem significant_lineEnd {tail : List Char} (h : IsLineEnd tail) : significant tail = [] := by
  obtain ⟨blanks, comment, rfl | rfl⟩ := h
  · simp [significant]
  · simp [significant]

theorem significant_append {cs tail : List Char} (h : ∀ c ∈ cs, c ≠ ';') (htail : IsLineEnd tail) :
    significant (cs ++ tail) = cs.filter (fun c => c ≠ ' ' && c ≠ '\t') := by
  have hall : ∀ c ∈ cs, decide (c ≠ ';') = true := fun c hc => decide_eq_true (h c hc)
  have hend : significant tail = [] := significant_lineEnd htail
  unfold significant at hend ⊢
  rw [List.takeWhile_append_of_pos hall, List.filter_append, hend, List.append_nil]

/-! ### Operands between commas -/

theorem splitCommas_cons {c : Char} (hc : c ≠ ',') {cs field : List Char} {fields : List (List Char)}
    (h : splitCommas cs = field :: fields) : splitCommas (c :: cs) = (c :: field) :: fields := by
  simp [splitCommas, h]

theorem splitCommas_plain {cs : List Char} (h : ∀ c ∈ cs, IsPlain c) : splitCommas cs = [cs] := by
  induction cs with
  | nil => rfl
  | cons c cs ih =>
    obtain ⟨⟨-, -, -, hc⟩, hcs⟩ := List.forall_mem_cons.mp h
    exact splitCommas_cons hc (ih hcs)

theorem splitCommas_append {cs rest : List Char} (h : ∀ c ∈ cs, IsPlain c) :
    splitCommas (cs ++ ',' :: rest) = cs :: splitCommas rest := by
  induction cs with
  | nil => rfl
  | cons c cs ih =>
    obtain ⟨⟨-, -, -, hc⟩, hcs⟩ := List.forall_mem_cons.mp h
    exact splitCommas_cons hc (ih hcs)

/-! ### Numerals -/

theorem digitChar_plain {d : Nat} (h : d < 16) :
    IsPlain d.digitChar ∧ d.digitChar ≠ '-' ∧ d.digitChar ≠ 'x' := by
  unfold IsPlain
  interval_cases d <;> decide

section
variable {base v : Nat} {cs : List Char}

theorem IsNumeral.plain (hb : base ≤ 16) (h : IsNumeral base cs v) : ∀ c ∈ cs, IsPlain c ∧ c ≠ '-' ∧ c ≠ 'x' := by
  obtain ⟨ds, -, hds, rfl, -⟩ := h
  intro c hc
  obtain ⟨d, hd, rfl⟩ := List.mem_map.mp hc
  exact digitChar_plain ((hds d hd).trans_le hb)

/-- A numeral is read as its value. -/
theorem IsNumeral.parseDigits (hb : base ≤ 16) (h : IsNumeral base cs v) : parseDigits base cs = some v := by
  obtain ⟨ds, hne, hds, rfl, rfl⟩ := h
  have hvalue : ds.foldl (fun v d => v * base + d) 0 = Nat.ofDigits base ds.reverse := by
    rw [Nat.ofDigits_eq_foldr, List.foldr_reverse]
    simp only [Nat.cast_id, Nat.add_comm, Nat.mul_comm]
  obtain ⟨d, ds, rfl⟩ := List.exists_cons_of_ne_nil hne
  rw [← hvalue]
  exact digitsValue_digitChar hb hds 0

end

/-! ### Colours and the index -/

theorem IsColourText.plain {cs : List Char} {v : Byte} (h : IsColourText cs v) : ∀ c ∈ cs, IsPlain c := by
  rcases h with h | ⟨hex, rfl, h⟩
  · exact fun c hc => (h.plain (by decide) c hc).1
  · have hhex : ∀ c ∈ hex, IsPlain c := fun c hc => (h.plain (by decide) c hc).1
    exact List.forall_mem_cons.mpr ⟨by simp [IsPlain], List.forall_mem_cons.mpr ⟨by simp [IsPlain], hhex⟩⟩

theorem IsIndexText.plain {cs : List Char} {i : Int} (h : IsIndexText cs i) : ∀ c ∈ cs, IsPlain c := by
  obtain ⟨v, ⟨h, -⟩ | ⟨ds, rfl, h, -⟩⟩ := h
  · exact fun c hc => (h.plain (by decide) c hc).1
  · refine List.forall_mem_cons.mpr ⟨by simp [IsPlain], ?_⟩
    exact fun c hc => (h.plain (by decide) c hc).1

theorem parseByte_of_decimal {cs : List Char} (h : ∀ rest, cs ≠ '0' :: 'x' :: rest) {v : Nat}
    (hv : parseDigits 10 cs = some v) (hlt : v < 256) : parseByte cs = some (BitVec.ofNat 8 v) := by
  unfold parseByte
  split
  · exact absurd rfl (h _)
  · simp [hv, hlt]

theorem IsColourText.parseByte {cs : List Char} {v : Byte} (h : IsColourText cs v) : parseByte cs = some v := by
  rcases h with h | ⟨hex, rfl, h⟩
  · have hx : ∀ rest, cs ≠ '0' :: 'x' :: rest := by
      rintro rest rfl
      exact absurd rfl (h.plain (by decide) 'x' (by simp)).2.2
    rw [parseByte_of_decimal hx (h.parseDigits (by decide)) v.isLt, BitVec.ofNat_toNat, BitVec.setWidth_eq]
  · have hv := h.parseDigits (by decide)
    simp [Machine.parseByte, hv, v.isLt]

theorem parseIndex_of_decimal {cs : List Char} (h : ∀ rest, cs ≠ '-' :: rest) {v : Nat}
    (hv : parseDigits 10 cs = some v) (hle : v ≤ 32767) : parseIndex cs = some (BitVec.ofNat 16 v) := by
  unfold parseIndex
  split
  · exact absurd rfl (h _)
  · simp [hv, hle]

theorem IsIndexText.parseIndex {cs : List Char} {i : Int} (h : IsIndexText cs i) (hlo : -32768 ≤ i)
    (hhi : i ≤ 32767) : parseIndex cs = some (BitVec.ofInt 16 i) := by
  obtain ⟨v, ⟨h, rfl⟩ | ⟨ds, rfl, h, rfl⟩⟩ := h
  · have hminus : ∀ rest, cs ≠ '-' :: rest := by
      rintro rest rfl
      exact absurd rfl (h.plain (by decide) '-' (by simp)).2.1
    rw [parseIndex_of_decimal hminus (h.parseDigits (by decide)) (by omega), BitVec.ofInt_natCast]
  · have hv := h.parseDigits (by decide)
    have hle : v ≤ 32768 := by omega
    simp [Machine.parseIndex, hv, hle]

/-! ### Lines -/

/-- The text of a `SET` with its four operands. -/
theorem parseLine_set {i : Int} {r g b : Byte} {iText rText gText bText tail : List Char} (hlo : -32768 ≤ i)
    (hhi : i ≤ 32767) (hi : IsIndexText iText i) (hr : IsColourText rText r) (hg : IsColourText gText g)
    (hb : IsColourText bText b) (htail : IsLineEnd tail) :
    parseLine
        (['S', 'E', 'T', ' '] ++ iText ++ [',', ' '] ++ rText ++ [',', ' '] ++ gText ++ [',', ' '] ++ bText ++ tail) =
      some (.set (BitVec.ofInt 16 i) r g b) := by
  have hsig : significant
      (['S', 'E', 'T', ' '] ++ iText ++ [',', ' '] ++ rText ++ [',', ' '] ++ gText ++ [',', ' '] ++ bText ++ tail) =
        'S' :: 'E' :: 'T' :: (iText ++ ',' :: (rText ++ ',' :: (gText ++ ',' :: bText))) := by
    have hstart : ∀ c ∈ ['S', 'E', 'T', ' '], c ≠ ';' := by simp
    have hcomma : ∀ c ∈ [',', ' '], c ≠ ';' := by simp
    have hplain {cs : List Char} (h : ∀ c ∈ cs, IsPlain c) : ∀ c ∈ cs, c ≠ ';' := fun c hc => (h c hc).1
    rw [significant_append ?_ htail]
    · simp only [List.filter_append, filter_of_plain hi.plain, filter_of_plain hr.plain, filter_of_plain hg.plain,
        filter_of_plain hb.plain, List.append_assoc]
      rfl
    · simp only [List.forall_mem_append]
      exact ⟨⟨⟨⟨⟨⟨⟨hstart, hplain hi.plain⟩, hcomma⟩, hplain hr.plain⟩, hcomma⟩, hplain hg.plain⟩, hcomma⟩,
        hplain hb.plain⟩
  unfold parseLine
  rw [hsig]
  show parseSet (splitCommas _) = _
  rw [splitCommas_append hi.plain, splitCommas_append hr.plain, splitCommas_append hg.plain, splitCommas_plain hb.plain,
    parseSet, hi.parseIndex hlo hhi, hr.parseByte, hg.parseByte, hb.parseByte]

/-- A line whose significant text is one of the two words. -/
theorem parseLine_word {cs tail : List Char} (h : ∀ c ∈ cs, IsPlain c) (htail : IsLineEnd tail) :
    parseLine (cs ++ tail) = parseLine cs := by
  have hcomment : ∀ c ∈ cs, c ≠ ';' := fun c hc => (h c hc).1
  have hnil : IsLineEnd [] := ⟨0, [], .inl rfl⟩
  unfold parseLine
  rw [significant_append hcomment htail, ← significant_append hcomment hnil, List.append_nil]

theorem canonical_of_parseSet {operands : List (List Char)} {i : Instr} (h : parseSet operands = some i) :
    i.wellFormed = true ∧ canonical i = i := by
  unfold parseSet at h
  split at h
  · split at h
    · obtain rfl := Option.some.inj h
      exact ⟨rfl, rfl⟩
    · cases h
  · cases h

/-- A line is read as a command with its ignored bits zero. -/
theorem canonical_of_parseLine {line : List Char} {i : Instr} (h : parseLine line = some i) :
    i.wellFormed = true ∧ canonical i = i := by
  unfold parseLine at h
  split at h
  · obtain rfl := Option.some.inj h
    exact ⟨rfl, rfl⟩
  · obtain rfl := Option.some.inj h
    exact ⟨rfl, rfl⟩
  · exact canonical_of_parseSet h
  · cases h

theorem assembleLine_of_parseLine {line : List Char} {i : Instr} (h : parseLine line = some i) :
    assembleLine line = encode i := by
  rw [assembleLine, h, Option.bind_some]

/-! ### Programs -/

theorem assemble_eq_some_iff (lines : List (List Char)) (ws : List CmdWord) :
    assemble lines = some ws ↔ lines.map assembleLine = ws.map some := by
  induction lines generalizing ws with
  | nil => cases ws <;> simp [assemble]
  | cons line lines ih =>
    cases ws with
    | nil =>
      simp only [assemble]
      cases assembleLine line <;> cases assemble lines <;> simp
    | cons w ws =>
      rw [List.map_cons, List.map_cons, List.cons.injEq, ← ih ws, assemble]
      cases assembleLine line <;> cases assemble lines <;> simp

/-! ### The settled statement -/

/-- Settles O6: each text is cut at its commas and each operand read as the number it denotes; what a line is read as
has a word, which decodes to it. -/
theorem assembledLineDecodes : Obligations.AssembledLineDecodes := by
  refine ⟨fun tail htail => ⟨?_, ?_, fun i r g b iText rText gText bText hlo hhi hi hr hg hb => ?_⟩,
    assemble_eq_some_iff, fun line w h => ?_⟩
  · rw [assembleLine, parseLine_word (by simp [IsPlain]) htail]
    decide
  · rw [assembleLine, parseLine_word (by simp [IsPlain]) htail]
    decide
  · exact assembleLine_of_parseLine (parseLine_set hlo hhi hi hr hg hb htail)
  · obtain ⟨i, hparse, henc⟩ := Option.bind_eq_some_iff.mp h
    obtain ⟨hwf, hcanon⟩ := canonical_of_parseLine hparse
    obtain ⟨w', henc', hdec⟩ := decodeReadsBackEncode i hwf
    obtain rfl : w = w' := Option.some.inj (henc.symm.trans henc')
    rw [hdec]
    exact ⟨hparse, hcanon⟩

end Sys2Proof.Machine
end
